-- ==== Sys2Proof/Word.lean ====
section
/-! DEFINITION. The word types of the ALAC decoder core (spec/00_scope.md rules R10 and R11): every datapath value is a
32-bit two's-complement word, host memory is made of bytes. Arithmetic is BitVec's own: `+`, `-`, `*` wrap modulo
2^32, `sdiv` truncates toward zero, `sshiftRight` fills with the sign. -/

namespace Sys2Proof

/-- A 32-bit value: a host-port register, or an `Int32` of the datapath (R10). -/
abbrev Word := BitVec 32

/-- One byte of the host memory (R12). -/
abbrev Byte := BitVec 8

end Sys2Proof
end

