-- ==== Sys2Proof/Config.lean ====
section
/-! DEFINITION. What is fixed for the core, and the free values. The parameter table of spec/00_scope.md rule R9: the
rows with one value are constants here, the open rows (`FIL_DSE_ASSIGNMENT`, `ESC_B_BUG`, `CORE_BASE`) are the record
`Params`, which State holds and no step writes (R9: a model takes them as arguments). The free values are constants
with no body (log 4, log 5). -/

namespace Sys2Proof

/-- `FIL_DSE_ASSIGNMENT` (R9, D18): which of tags 4 and 6 has the short-count skip and which the aligned skip. -/
inductive FilDse where
  /-- Tag 4 is the short-count skip, tag 6 the aligned skip (the default). -/
  | doc
  /-- The two bodies are exchanged. -/
  | swapped
  deriving DecidableEq, Repr

/-- `ESC_B_BUG` (R9, R250, D26): the paths of a not-compressed CPE on which channel 1 takes channel 0's value. -/
inductive EscBug where
  /-- The path of sample sizes up to 16 bits (the default). -/
  | le16
  /-- The path of sample sizes above 16 bits. -/
  | gt16
  /-- Both paths. -/
  | both
  /-- No path: no defect. -/
  | clean
  deriving DecidableEq, Repr

/-- The open parameters of the core (R9; 92_eei_decisions.md, "Open parameters"). -/
structure Params where
  filDse : FilDse
  escBug : EscBug
  /-- `CORE_BASE`: the bus address of the register block. -/
  coreBase : Word
  deriving DecidableEq, Repr

namespace Config

/-- `MAX_FRAME_LIMIT` (R9): the upper bound of `max_samples_per_frame`. -/
def maxFrameLimit : Nat := 16364

/-- `MAX_CHANNELS` (R9). -/
def maxChannels : Nat := 8

/-- `BIT_DEPTHS` (R9). -/
def bitDepths : List Byte := [16#8, 20#8, 24#8, 32#8]

/-- `COEF_TABLE_ENTRIES` (R9). -/
def coefEntries : Nat := 32

/-- `RICE_THRESHOLD` (R9): nine consecutive one bits are an escape. -/
def riceThreshold : Nat := 8

/-- `COOKIE_MIN_BYTES` (R9). -/
def cookieMinBytes : Nat := 12

/-- FREE VALUE (log 4): the n-th value the spec leaves unspecified: a register after an error (R285), a host read of a
result while the core is busy (R71). Applied to the counter `draws` of State. -/
opaque freeWord : Nat → Word

/-- FREE VALUE (log 5): what a scratch entry that the current element has not written reads as (R32, R36). Applied to
the entry's index. No run reads one (R32). -/
opaque freeScratch : Nat → Word

end Config
end Sys2Proof
end

