-- ==== Sys2Proof/Syntax.lean ====
section
/-! DEFINITION. The instructions of the core: ONE constructor for each row of spec/opcode_table.json. The core decodes three
encoded forms (spec/30_encoding.md rule R80). Two of them are instruction words: the host command word written to `CMD`
(nine rows), and the element stream, whose parts are elements (eight rows), predictor headers (four rows) and Rice
codewords (three rows). The third, the magic cookie, is data that CONFIGURE reads. -/

namespace Sys2Proof

/-- The header of an audio element after its tag (R90). `count` is present exactly when `hassize` = 1. -/
structure AudioHeader where
  /-- `instance`, 4 bits, ignored by the core. -/
  inst : BitVec 4
  /-- `unused`, 12 bits, ignored by the core. -/
  unused : BitVec 12
  /-- `ub`, the uncompressed-byte count. -/
  ub : BitVec 2
  /-- `esc`, 1 = samples stored raw. -/
  esc : Bool
  /-- `count`, when `hassize` = 1. -/
  count : Option (BitVec 32)
  deriving DecidableEq, Repr

/-- A Rice codeword (R97). In `unary x s` the number s is the suffix e when e > 1, and 0 when no suffix is read (k = 1) or
e is 0 or 1 (then the last suffix bit is pushed back and is no part of the codeword, R155). -/
inductive Codeword where
  | unary (x : BitVec 4) (s : BitVec 32)
  | escape (v : BitVec 32)
  deriving DecidableEq, Repr

/-- The instruction set: host commands (R82), elements (R89), predictor headers (R93), Rice codewords (R97, R98). -/
inductive Instr where
  /-- CONFIGURE, OP 0 (R231). -/
  | configure (a b : BitVec 6)
  /-- DECODE, OP 1 (R234). -/
  | decode (a b : BitVec 6)
  /-- BR_SEEK, OP 2 (R131). -/
  | brSeek (a b : BitVec 6)
  /-- BR_READ, OP 3 (R132). -/
  | brRead (a b : BitVec 6)
  /-- BR_READ_BIT, OP 4 (R133). -/
  | brReadBit (a b : BitVec 6)
  /-- BR_UNREAD, OP 5 (R134). -/
  | brUnread (a b : BitVec 6)
  /-- LZC, OP 6 (R143). -/
  | lzc (a b : BitVec 6)
  /-- RICE_VALUE, OP 7 (R159). -/
  | riceValue (a b : BitVec 6)
  /-- RESERVED_OP: a word with OP in 8..15 or CMD[31:16] ≠ 0 (R283). -/
  | reservedOp (w : BitVec 32)
  /-- SCE, tag 0: one channel (R238). -/
  | sce (h : AudioHeader)
  /-- CPE, tag 1: two channels (R238). -/
  | cpe (h : AudioHeader)
  /-- CCE, tag 2: unsupported (R251). -/
  | cce
  /-- LFE, tag 3: decoded as SCE (R238). -/
  | lfe (h : AudioHeader)
  /-- GAP, the short-count skip (R252): tag 4, or tag 6 when `FIL_DSE_ASSIGNMENT` = swapped. -/
  | gap (cnt : BitVec 4) (ext : Option (BitVec 8))
  /-- PCE, tag 5: unsupported (R251). -/
  | pce
  /-- FILL, the aligned skip (R253): tag 6, or tag 4 when `FIL_DSE_ASSIGNMENT` = swapped. -/
  | fill (inst : BitVec 4) (align : Bool) (cnt : BitVec 8) (ext : Option (BitVec 8))
  /-- END, tag 7 (R254). -/
  | endElement
  /-- PRED_COPY: mode 0, ncoef 0 (R182). -/
  | predCopy (quant : BitVec 4) (ricemod : BitVec 3)
  /-- PRED_FIRST_DIFF: mode 0, ncoef 31, with its 31 coefficients (R94, R185). -/
  | predFirstDiff (quant : BitVec 4) (ricemod : BitVec 3) (coefs : List (BitVec 16))
  /-- PRED_ADAPTIVE: mode 0, ncoef 1..30, with its coefficients (R94, R181). -/
  | predAdaptive (quant : BitVec 4) (ricemod : BitVec 3) (ncoef : BitVec 5) (coefs : List (BitVec 16))
  /-- PRED_PREPASS: mode ≠ 0, any ncoef, with its coefficients (R94, R191). -/
  | predPrepass (mode quant : BitVec 4) (ricemod : BitVec 3) (ncoef : BitVec 5) (coefs : List (BitVec 16))
  /-- RICE_UNARY: one residual, unary prefix and suffix (R153). -/
  | riceUnary (x : BitVec 4) (s : BitVec 32)
  /-- RICE_ESCAPE: one residual, nine ones and raw bits (R156). -/
  | riceEscape (v : BitVec 32)
  /-- ZERO_RUN: the block length of a zero run (R163). -/
  | zeroRun (cw : Codeword)
  deriving DecidableEq, Repr

/-- Which encoded form is being read: the command word, or the part of the element stream the parser is at. An element's
meaning of tags 4 and 6 depends on `FIL_DSE_ASSIGNMENT`; a codeword's shape depends on the raw width w and the Rice
parameter k, which the machine holds and the stream does not (R97, R105). -/
inductive Form where
  | command
  | element (fd : FilDse)
  | predictor
  | codeword (w k : Nat)
  | zeroRun (k : Nat)
  deriving DecidableEq, Repr

end Sys2Proof
end

