-- ==== Sys2Proof/WellFormed.lean ====
section
/-! DEFINITION. Which terms of Instr an encoding of the spec stands for, form by form: the checks that the syntax does not
make by itself. A well-formed instruction may still raise an error when it runs (a `BR_READ` of 33 bits, R132). -/

namespace Sys2Proof

/-- A Rice codeword under raw width w and parameter k (R97): at most eight ones before the zero; the suffix, when it is
part of the codeword at all, is at least 2 and fits k bits; an escape value fits w bits. -/
def Codeword.wf (w k : Nat) : Codeword → Bool
  | .unary x s => x.toNat ≤ 8 && (s == 0#32 || (k != 1 && 2 ≤ s.toNat && s.toNat < 2 ^ k))
  | .escape v => v.toNat < 2 ^ w

/-- A reserved command word (R283): OP in 8..15, or a reserved bit set. -/
def reservedWord (w : BitVec 32) : Bool :=
  w.extractLsb' 16 16 != 0#16 || 8 ≤ (w.extractLsb' 0 4).toNat

/-- The instruction belongs to the form and its fields agree with one another:
* RESERVED_OP holds a reserved word (R283);
* GAP has its 8-bit extension exactly when the count is 15 (R99), FILL when it is 255 (R100);
* the coefficients are as many as `ncoef`, and `ncoef` is that of the row (R93, R94);
* PRED_PREPASS has a mode other than 0 (R191);
* a codeword has the shape of R97 (R98 for ZERO_RUN, w = 16). -/
def Instr.wf (f : Form) (i : Instr) : Bool :=
  match f, i with
  | .command, .configure _ _ | .command, .decode _ _ | .command, .brSeek _ _ | .command, .brRead _ _
  | .command, .brReadBit _ _ | .command, .brUnread _ _ | .command, .lzc _ _ | .command, .riceValue _ _ => true
  | .command, .reservedOp w => reservedWord w
  | .element _, .sce _ | .element _, .cpe _ | .element _, .lfe _ => true
  | .element _, .cce | .element _, .pce | .element _, .endElement => true
  | .element _, .gap cnt ext => ext.isSome == (cnt == 15#4)
  | .element _, .fill _ _ cnt ext => ext.isSome == (cnt == 255#8)
  | .predictor, .predCopy _ _ => true
  | .predictor, .predFirstDiff _ _ cs => cs.length == 31
  | .predictor, .predAdaptive _ _ n cs => 1 ≤ n.toNat && n.toNat ≤ 30 && cs.length == n.toNat
  | .predictor, .predPrepass m _ _ n cs => m != 0#4 && cs.length == n.toNat
  | .codeword w k, .riceUnary x s => (Codeword.unary x s).wf w k
  | .codeword w k, .riceEscape v => (Codeword.escape v).wf w k
  | .zeroRun k, .zeroRun cw => cw.wf 16 k
  | _, _ => false

end Sys2Proof
end

