-- ==== Sys2Proof/Decode.lean ====
section
/-! DEFINITION. The decoder and the encoder of the core's instruction words (spec/30_encoding.md). A form of the element
stream is decoded by a plan of field reads (`Fields`), which is written once and followed twice: over a list of bits
(`decode`, here), and by the machine over the input buffer with the BitReader (Machine/Fetch.lean). The command word is
decoded whole (R81, R82). -/

namespace Sys2Proof

/-! ### Bits -/

/-- The n low bits of v, most significant first: the order of the stream (R11, R62). -/
def bitsOf : Nat → Nat → List Bool
  | 0, _ => []
  | n + 1, v => v.testBit n :: bitsOf n v

/-- The number a list of bits stands for, the first bit the most significant (R62). -/
def natOfBits (l : List Bool) : Nat :=
  l.foldl (fun acc b => 2 * acc + b.toNat) 0

/-- A field of n bits in stream order. -/
def fieldBits {n : Nat} (v : BitVec n) : List Bool := bitsOf n v.toNat

/-! ### Field plans -/

/-- A plan of reads that ends in a value: `field n` is `read_bits(n)` (R124, R125), `bit` is `read_bit()` (R128), `back` is
`unread_bits(1)` (R129). -/
inductive Fields (α : Type) where
  | done (a : α)
  | field (n : Nat) (next : BitVec n → Fields α)
  | bit (next : Bool → Fields α)
  | back (next : Fields α)

namespace Fields

/-- One plan after another. -/
def bind {α β : Type} : Fields α → (α → Fields β) → Fields β
  | .done a, g => g a
  | .field n k, g => .field n fun v => (k v).bind g
  | .bit k, g => .bit fun b => (k b).bind g
  | .back f, g => .back (f.bind g)

/-- A plan whose value is changed at the end. -/
def map {α β : Type} (g : α → β) (f : Fields α) : Fields β := f.bind fun a => .done (g a)

end Fields

/-- Why a list of bits holds no instruction of a form. Every tag, every predictor header and every codeword prefix is an
instruction (R89, R93, R97), so nothing else is ever rejected. -/
inductive DecodeError where
  /-- The bits end before the instruction does (`MalformedStream` in the machine, R127). -/
  | truncated
  /-- A bit would be pushed back before the first one (R129). -/
  | beforeStart
  deriving DecidableEq, Repr

/-- Follow a plan over a list of bits, from position `pos`: the value and the position after it. -/
def Fields.run {α : Type} (bits : List Bool) : Fields α → Nat → Except DecodeError (α × Nat)
  | .done a, pos => .ok (a, pos)
  | .field n k, pos =>
    if pos + n ≤ bits.length then
      (k (BitVec.ofNat n (natOfBits ((bits.drop pos).take n)))).run bits (pos + n)
    else .error .truncated
  | .bit k, pos =>
    match bits[pos]? with
    | some b => (k b).run bits (pos + 1)
    | none => .error .truncated
  | .back f, pos => if 1 ≤ pos then f.run bits (pos - 1) else .error .beforeStart

/-! ### The forms of the element stream -/

/-- The header of an audio element, after its tag (R90). -/
def audioHeaderFields : Fields AudioHeader :=
  .field 4 fun inst => .field 12 fun unused => .field 1 fun hassize => .field 2 fun ub => .field 1 fun esc =>
    if hassize = 1#1 then
      .field 32 fun count => .done ⟨inst, unused, ub, esc == 1#1, some count⟩
    else .done ⟨inst, unused, ub, esc == 1#1, none⟩

/-- The body of a gap element (R99, R252): the count, and an 8-bit extension when it is 15. -/
def gapFields : Fields Instr :=
  .field 4 fun cnt =>
    if cnt = 15#4 then .field 8 fun ext => .done (.gap cnt (some ext)) else .done (.gap cnt none)

/-- The body of a fill element (R100, R253): instance, align, count, and an 8-bit extension when it is 255. -/
def fillFields : Fields Instr :=
  .field 4 fun inst => .field 1 fun align => .field 8 fun cnt =>
    if cnt = 255#8 then .field 8 fun ext => .done (.fill inst (align == 1#1) cnt (some ext))
    else .done (.fill inst (align == 1#1) cnt none)

/-- An element: the 3-bit tag, then its fields (R89; R234 for the two assignments of tags 4 and 6). -/
def elementFields (fd : FilDse) : Fields Instr :=
  .field 3 fun tag =>
    if tag = 0#3 then audioHeaderFields.map .sce
    else if tag = 1#3 then audioHeaderFields.map .cpe
    else if tag = 2#3 then .done .cce
    else if tag = 3#3 then audioHeaderFields.map .lfe
    else if tag = 4#3 then (if fd = .doc then gapFields else fillFields)
    else if tag = 5#3 then .done .pce
    else if tag = 6#3 then (if fd = .doc then fillFields else gapFields)
    else .done .endElement

/-- n coefficients of 16 bits in stream order, j = 0 first (R94). -/
def coefFields : Nat → Fields (List (BitVec 16))
  | 0 => .done []
  | n + 1 => .field 16 fun c => (coefFields n).map (c :: ·)

/-- Which row of the table a predictor header is: PRED_PREPASS when the mode is not 0 (R191), else by `ncoef` (R182, R185,
R181). -/
def predictorOf (mode quant : BitVec 4) (ricemod : BitVec 3) (ncoef : BitVec 5) (cs : List (BitVec 16)) : Instr :=
  if mode = 0#4 then
    if ncoef = 0#5 then .predCopy quant ricemod
    else if ncoef = 31#5 then .predFirstDiff quant ricemod cs
    else .predAdaptive quant ricemod ncoef cs
  else .predPrepass mode quant ricemod ncoef cs

/-- A predictor header and its coefficients (R93, R94, R245). -/
def predictorFields : Fields Instr :=
  .field 4 fun mode => .field 4 fun quant => .field 3 fun ricemod => .field 5 fun ncoef =>
    (coefFields ncoef.toNat).map (predictorOf mode quant ricemod ncoef)

/-- The unary prefix (R154): at most `fuel` more bits are read; a zero bit ends it. -/
def unaryFields : Nat → Nat → Fields Nat
  | 0, x => .done x
  | fuel + 1, x => .bit fun b => if b then unaryFields fuel (x + 1) else .done x

/-- A Rice codeword under raw width w and parameter k (R97, R153 to R156): nine ones are an escape; with k = 1 no suffix is
read; a suffix of 0 or 1 gives one bit back. -/
def codewordFields (w k : Nat) : Fields Codeword :=
  (unaryFields (Config.riceThreshold + 1) 0).bind fun x =>
    if Config.riceThreshold < x then .field w fun v => .done (.escape (v.setWidth 32))
    else if k = 1 then .done (.unary (BitVec.ofNat 4 x) 0#32)
    else .field k fun e =>
      if 1 < e.toNat then .done (.unary (BitVec.ofNat 4 x) (e.setWidth 32))
      else .back (.done (.unary (BitVec.ofNat 4 x) 0#32))

/-- The residual row a codeword belongs to (R153, R156). -/
def residualOf : Codeword → Instr
  | .unary x s => .riceUnary x s
  | .escape v => .riceEscape v

/-- The command word (R81, R82): OP in bits 3:0, A in 9:4, B in 15:10. A word with a reserved bit set or a reserved OP is
RESERVED_OP. Every word is an instruction. -/
def decodeCommand (w : BitVec 32) : Instr :=
  let a := w.extractLsb' 4 6
  let b := w.extractLsb' 10 6
  if reservedWord w then .reservedOp w
  else if w.extractLsb' 0 4 = 0#4 then .configure a b
  else if w.extractLsb' 0 4 = 1#4 then .decode a b
  else if w.extractLsb' 0 4 = 2#4 then .brSeek a b
  else if w.extractLsb' 0 4 = 3#4 then .brRead a b
  else if w.extractLsb' 0 4 = 4#4 then .brReadBit a b
  else if w.extractLsb' 0 4 = 5#4 then .brUnread a b
  else if w.extractLsb' 0 4 = 6#4 then .lzc a b
  else .riceValue a b

/-- The plan of a form. -/
def formFields : Form → Fields Instr
  | .command => .field 32 fun w => .done (decodeCommand w)
  | .element fd => elementFields fd
  | .predictor => predictorFields
  | .codeword w k => (codewordFields w k).map residualOf
  | .zeroRun k => (codewordFields 16 k).map .zeroRun

/-- THE DECODER: the instruction of form f at position `pos` of a list of bits, and the position after it. Total on any
bits; the only rejections are those of `DecodeError`. -/
def decodeAt (f : Form) (bits : List Bool) (pos : Nat) : Except DecodeError (Instr × Nat) :=
  (formFields f).run bits pos

/-- The instruction at the start of a list of bits, and how many bits it takes. -/
def decode (f : Form) (bits : List Bool) : Except DecodeError (Instr × Nat) := decodeAt f bits 0

/-! ### The encoder -/

/-- A command word (R81): `{B, A, OP}` with the reserved bits 0. -/
def commandWord (op : BitVec 4) (a b : BitVec 6) : BitVec 32 := (0#16 ++ b ++ a ++ op : BitVec 32)

/-- The header of an audio element after its tag (R90). -/
def encodeHeader (h : AudioHeader) : List Bool :=
  fieldBits h.inst ++ fieldBits h.unused ++ [h.count.isSome] ++ fieldBits h.ub ++ [h.esc] ++
    (match h.count with | some c => fieldBits c | none => [])

/-- A predictor header and its coefficients (R93, R94). -/
def encodePredictor (mode quant : BitVec 4) (ricemod : BitVec 3) (ncoef : BitVec 5) (cs : List (BitVec 16)) :
    List Bool :=
  fieldBits mode ++ fieldBits quant ++ fieldBits ricemod ++ fieldBits ncoef ++ cs.flatMap fun c => fieldBits c

/-- A Rice codeword under w and k (R97): `1^x 0 e[k-1:0]`, `1^x 0` for k = 1, `1^x 0 e[k-1:1]` for a suffix of 0 or 1,
`1^9 v[w-1:0]` for an escape. -/
def encodeCodeword (w k : Nat) : Codeword → List Bool
  | .unary x s =>
    List.replicate x.toNat true ++ [false] ++
      (if k = 1 then [] else if s = 0#32 then List.replicate (k - 1) false else bitsOf k s.toNat)
  | .escape v => List.replicate 9 true ++ bitsOf w v.toNat

/-- An optional 8-bit extension of a count (R99, R100). -/
def encodeExt : Option (BitVec 8) → List Bool
  | some e => fieldBits e
  | none => []

/-- The 3-bit tag of the gap body and of the fill body under an assignment (R234). -/
def gapTag (fd : FilDse) : BitVec 3 := if fd = .doc then 4#3 else 6#3

/-- See `gapTag`. -/
def fillTag (fd : FilDse) : BitVec 3 := if fd = .doc then 6#3 else 4#3

/-- THE ENCODER: the bits of an instruction in a form, in stream order (a command word most significant bit first); no bits
for an instruction that is not of the form. -/
def encode (f : Form) (i : Instr) : List Bool :=
  match f, i with
  | .command, .configure a b => fieldBits (commandWord 0#4 a b)
  | .command, .decode a b => fieldBits (commandWord 1#4 a b)
  | .command, .brSeek a b => fieldBits (commandWord 2#4 a b)
  | .command, .brRead a b => fieldBits (commandWord 3#4 a b)
  | .command, .brReadBit a b => fieldBits (commandWord 4#4 a b)
  | .command, .brUnread a b => fieldBits (commandWord 5#4 a b)
  | .command, .lzc a b => fieldBits (commandWord 6#4 a b)
  | .command, .riceValue a b => fieldBits (commandWord 7#4 a b)
  | .command, .reservedOp w => fieldBits w
  | .element _, .sce h => fieldBits 0#3 ++ encodeHeader h
  | .element _, .cpe h => fieldBits 1#3 ++ encodeHeader h
  | .element _, .cce => fieldBits 2#3
  | .element _, .lfe h => fieldBits 3#3 ++ encodeHeader h
  | .element fd, .gap cnt ext => fieldBits (gapTag fd) ++ fieldBits cnt ++ encodeExt ext
  | .element _, .pce => fieldBits 5#3
  | .element fd, .fill inst align cnt ext =>
    fieldBits (fillTag fd) ++ fieldBits inst ++ [align] ++ fieldBits cnt ++ encodeExt ext
  | .element _, .endElement => fieldBits 7#3
  | .predictor, .predCopy q r => encodePredictor 0#4 q r 0#5 []
  | .predictor, .predFirstDiff q r cs => encodePredictor 0#4 q r 31#5 cs
  | .predictor, .predAdaptive q r n cs => encodePredictor 0#4 q r n cs
  | .predictor, .predPrepass m q r n cs => encodePredictor m q r n cs
  | .codeword w k, .riceUnary x s => encodeCodeword w k (.unary x s)
  | .codeword w k, .riceEscape v => encodeCodeword w k (.escape v)
  | .zeroRun k, .zeroRun cw => encodeCodeword 16 k cw
  | _, _ => []

/-- How many of the bits of `encodeCodeword` the decoder consumes: all of them, but for k = 0 the zero that ends the prefix
is pushed back (R155) and is the next codeword's. -/
def codewordLength (w k : Nat) (c : Codeword) : Nat :=
  match c with
  | .unary _ _ => (encodeCodeword w k c).length - (if k = 0 then 1 else 0)
  | .escape _ => (encodeCodeword w k c).length

/-! ### The words of the opcode table -/

/-- A word as spec/opcode_table.json numbers it (log 12), as a form and its bits in stream order: 32 bits are a command
word; 16 bits with 6 in bits 15:13 are FILL and any other 16 bits are a predictor header; 24 bits hold the 23-bit header of
SCE, CPE or LFE; 8 bits hold a 3-bit tag (CCE, PCE, END) or the 7 bits of GAP, each pattern read as one number with bit 0
its last bit; no bits at all (the Rice rows have no fixed pattern) is a codeword of zeros. -/
def tableForm (nbits w : Nat) : Option (Form × List Bool) :=
  if nbits = 32 then some (.command, bitsOf 32 w)
  else if nbits = 24 then some (.element .doc, bitsOf 23 w)
  else if nbits = 16 then
    if w / 2 ^ 13 % 8 = 6 then some (.element .doc, bitsOf 16 w) else some (.predictor, bitsOf 16 w)
  else if nbits = 8 then
    if w < 8 then some (.element .doc, bitsOf 3 w)
    else if w < 128 then some (.element .doc, bitsOf 7 w)
    else none
  else if nbits = 0 then some (.codeword 16 1, [])
  else none

/-- The longest instruction of the stream: a predictor header with 31 coefficients, in bits (R93, R94). -/
def longestBits : Nat := 16 + 31 * 16

/-- The bits of a table word, followed by zeros up to the longest instruction. -/
def tableBits (bits : List Bool) : List Bool := bits ++ List.replicate (longestBits - bits.length) false

/-- The instruction the decoder reads from a word of the opcode table, every bit above it 0. -/
def decodeTableWord (nbits w : Nat) : Option Instr :=
  match tableForm nbits w with
  | none => none
  | some (f, bits) =>
    match decode f (tableBits bits) with
    | .ok (i, _) => some i
    | .error _ => none

end Sys2Proof
end

