-- ==== Sys2Proof/Machine/State.lean ====
section
/-! DEFINITION. The state of the core as plain data (spec/10_state.md), the reasons a step can stop, and the state after
reset (R36, R310). INVENTORY.md lists every field with its rule. The groups are those of R20: configuration registers,
host port, cursor, Rice decoder, parser, per-channel registers with their coefficient table and scratch buffers. Beside
them stand the host memory (R60), the open parameters (R9), and three fields of the model's own: where the core is inside
a command (`stage`, `chan`), what the host does next (`host`, `busData`), and the counter of free values (`draws`). -/

namespace Sys2Proof.Machine

/-- Why a step stops: each is a case to which the spec gives no step. All are safe: the model stops where hardware may go
on. -/
inductive Fault where
  /-- A byte of host memory the platform does not serve, or that nothing has placed there, is accessed (R70: "a request it
  does not admit has no step"). Raised by every read of the cookie or the input buffer, every write of output, and the
  host's own memory accesses. Safe. -/
  | busError
  /-- The host accesses the register block with a width or alignment other than a 32-bit word, or at an address outside it
  (R67: "the model gives it no step"). Raised by the host port. Safe. -/
  | hostAccess
  /-- The host writes the cookie, input or output buffer while a command runs (R73: "no step in the model"). Raised by the
  host port. Safe. -/
  | hostWroteBuffer
  /-- A command starts while two of the cookie, input and output buffers overlap (R73, R316: "no step in the model"). Raised by
  the host's write of `CMD`, and by the core where a command is about to start all the same; of any command (log 8). Safe. -/
  | buffersOverlap
  deriving DecidableEq, Repr

/-- Why an instruction has no meaning in the model. -/
inductive Refusal where
  /-- The instruction of this mnemonic has no meaning yet. Raised by an arm of `exec` only; none is left. Safe. -/
  | notModelled (mnemonic : String)
  deriving DecidableEq, Repr

/-- The error kinds that end a command (R280). They are not faults of the model: a command that raises one ends in a next
state. -/
inductive ErrKind where
  | invalidConfig
  | unsupportedElement
  | malformedStream
  | bufferOverrun
  | hostContract
  deriving DecidableEq, Repr

/-- The parser states of R237. -/
inductive ParserState where
  | fetchTag
  | sce
  | cpe
  | gap
  | fill
  | endCheck
  | halt
  deriving DecidableEq, Repr

/-- What the core reads next (log 1): nothing (`idle`, BUSY = 0), the command word in CMD, an element, a predictor header, the
codeword of a residual, or the codeword of a zero run. -/
inductive Stage where
  | idle
  | command
  | element
  | predictor
  | residual
  | zeroRun
  deriving DecidableEq, Repr

/-- The two channels of an element, ch = 0 and ch = 1 (R30). -/
inductive Ch where
  | c0
  | c1
  deriving DecidableEq, Repr

/-- The configuration registers (R22). -/
structure StreamCfg where
  maxSamples : Word
  bits : BitVec 8
  histMult : BitVec 8
  initHist : BitVec 8
  kmod : BitVec 8
  numCh : BitVec 8
  configured : Bool
  deriving DecidableEq, Repr

/-- The host-port registers (R24, R25, R26), less the read-only views of other registers. `cmd` is the command word last
written while the core was not busy. -/
structure Port where
  cmd : Word
  busy : Bool
  done : Bool
  err : BitVec 4
  irqEn : Bool
  cookieAddr : Word
  cookieLen : Word
  inAddr : Word
  inLen : Word
  outAddr : Word
  outCap : Word
  outLen : Word
  chmap : Word
  dataIn : Word
  dataOut : Word
  deriving DecidableEq, Repr

/-- The BitReader cursor (R28). -/
structure Cursor where
  byteIdx : Word
  bitOff : BitVec 3
  deriving DecidableEq, Repr

/-- The Rice decoder's run state (R29). -/
structure Rice where
  history : Word
  signMod : Word
  k : Word
  deriving DecidableEq, Repr

/-- The Frame Parser's registers (R33), less the per-channel ones. -/
structure Parser where
  state : ParserState
  ci : Nat
  hwm : Word
  n : Word
  ub : BitVec 2
  esc : Bool
  hasSize : Bool
  mixShift : BitVec 8
  mixWeight : BitVec 8
  deriving DecidableEq, Repr

/-- The registers of one channel of the element being decoded: predictor header (R33), coefficient table of 32 entries
(R30), and the scratch buffers (R31). A scratch buffer is the list of the entries the current element has written, which
are always entries 0, 1, … in order; an entry at or beyond its length is unspecified (R32, R36; log 5). -/
structure ChanRegs where
  mode : BitVec 4
  quant : BitVec 4
  ricemod : BitVec 3
  ncoef : BitVec 5
  coef : List Word
  res : List Word
  smp : List Word
  low : List Word
  deriving DecidableEq, Repr

/-- A range of addresses. -/
structure Region where
  base : Nat
  size : Nat
  deriving DecidableEq, Repr

/-- The host memory (R60): the bytes that have been placed or written, addresses strictly rising. An address that is not
listed holds no byte, and an access the platform does not serve has no step (R70): `unserved` lists the ranges it does not
serve, which no step changes (log 3). -/
structure Memory where
  cells : List Host.Cell
  unserved : List Region
  deriving DecidableEq, Repr

/-- What the host does, in order (R16, R24, R310; log 2). -/
inductive HostOp where
  /-- Write a register at a bus address; the width in bytes. -/
  | writeReg (addr : Word) (width : Nat) (v : Word)
  /-- Read a register at a bus address; the width in bytes. -/
  | readReg (addr : Word) (width : Nat)
  /-- Write one byte of host memory. -/
  | writeMem (addr : Word) (b : Byte)
  /-- Read one byte of host memory. -/
  | readMem (addr : Word)
  /-- Assert the reset input. -/
  | reset
  /-- Leave the core n turns. -/
  | turns (n : Nat)
  /-- Leave the core its turns until it is not busy. -/
  | wait
  deriving DecidableEq, Repr

/-- The state of the machine. -/
structure State where
  cfg : StreamCfg
  port : Port
  cursor : Cursor
  rice : Rice
  parser : Parser
  ch0 : ChanRegs
  ch1 : ChanRegs
  mem : Memory
  params : Params
  stage : Stage
  chan : Ch
  host : List HostOp
  busData : Word
  draws : Nat
  deriving DecidableEq, Repr

/-- The configuration registers cleared (R36, R233). -/
def StreamCfg.clear : StreamCfg :=
  { maxSamples := 0#32, bits := 0#8, histMult := 0#8, initHist := 0#8, kmod := 0#8, numCh := 0#8, configured := false }

/-- The host port after reset (R24, R26: 0 throughout). -/
def Port.reset : Port :=
  { cmd := 0#32, busy := false, done := false, err := 0#4, irqEn := false, cookieAddr := 0#32, cookieLen := 0#32,
    inAddr := 0#32, inLen := 0#32, outAddr := 0#32, outCap := 0#32, outLen := 0#32, chmap := 0#32, dataIn := 0#32,
    dataOut := 0#32 }

/-- The parser after reset (R36). -/
def Parser.reset : Parser :=
  { state := .halt, ci := 0, hwm := 0#32, n := 0#32, ub := 0#2, esc := false, hasSize := false, mixShift := 0#8,
    mixWeight := 0#8 }

/-- The registers of a channel after reset: header fields 0 (R36), the coefficient entries 0 (R36 leaves them unspecified:
log 6, DESIGN CHOICE), every scratch entry unspecified. -/
def ChanRegs.reset : ChanRegs :=
  { mode := 0#4, quant := 0#4, ricemod := 0#3, ncoef := 0#5, coef := List.replicate 32 0#32, res := [], smp := [],
    low := [] }

/-- The state right after reset (R36, R310, R311): the core waits for a `CMD` write. The parameters are the defaults of R9,
`CORE_BASE`, which is the platform's, 0 (log 7, DESIGN CHOICE); memory lists nothing and every address is served (log 3);
the host does nothing. -/
def State.reset : State :=
  { cfg := .clear, port := .reset, cursor := ⟨0#32, 0#3⟩, rice := ⟨0#32, 0#32, 0#32⟩, parser := .reset, ch0 := .reset,
    ch1 := .reset, mem := ⟨[], []⟩, params := ⟨.doc, .le16, 0#32⟩, stage := .idle, chan := .c0, host := [],
    busData := 0#32, draws := 0 }

end Sys2Proof.Machine
end

