-- ==== Sys2Proof/Machine/Flags.lean ====
section
/-! DEFINITION. The flags of the core. It has no condition codes (R34): its only flags are those of `STATUS` (R26),
`CONFIGURED` and the interrupt level (R287). -/

namespace Sys2Proof.Machine

/-- The code of an error kind (R280). -/
def ErrKind.code : ErrKind → BitVec 4
  | .invalidConfig => 1#4
  | .unsupportedElement => 2#4
  | .malformedStream => 3#4
  | .bufferOverrun => 4#4
  | .hostContract => 5#4

/-- `STATUS` as the host reads it (R26): ERR in 7:4, CONFIGURED in bit 2, DONE in bit 1, BUSY in bit 0. -/
def State.status (s : State) : Word :=
  (0#24 ++ s.port.err ++ 0#1 ++ BitVec.ofBool s.cfg.configured ++ BitVec.ofBool s.port.done ++
    BitVec.ofBool s.port.busy : BitVec 32)

/-- The interrupt output, `irq = STATUS.DONE & CTRL.IRQ_EN`, a level (R287). -/
def State.irq (s : State) : Bool := s.port.done && s.port.irqEn

/-- A write of v to `STATUS`: `DONE` is cleared where bit 1 of v is 1 (R26, W1C). -/
def doneAfterStatusWrite (done : Bool) (v : Word) : Bool := done && !v.getLsbD 1

end Sys2Proof.Machine
end

