-- ==== Sys2Proof/Machine/Memory.lean ====
section
/-! DEFINITION. The host memory one byte at a time (spec/20_memory.md rules R60, R66, R70): the core and the host make only
single-byte accesses, so no wider access exists and byte order is decided where bytes are put together (R62 to R64). -/

namespace Sys2Proof.Machine

/-- The canonical form: addresses strictly rising, all below 2^32. An unlisted address holds no byte, so no entry can equal
what it reads as. -/
abbrev Memory.wf (m : Memory) : Prop :=
  m.cells.Pairwise (fun a b => a.1 < b.1) ∧ ∀ c ∈ m.cells, c.1 < 2 ^ 32

/-- The byte listed at an address. -/
def lookupCell : List Host.Cell → Nat → Option Byte
  | [], _ => none
  | (b, v) :: rest, a => if a = b then some v else lookupCell rest a

/-- Put a byte at an address, keeping the order. -/
def insertCell : List Host.Cell → Nat → Byte → List Host.Cell
  | [], a, v => [(a, v)]
  | (b, w) :: rest, a, v =>
    if a < b then (a, v) :: (b, w) :: rest
    else if a = b then (a, v) :: rest
    else (b, w) :: insertCell rest a v

/-- The platform serves the address (R70). -/
def Memory.serves (m : Memory) (a : Nat) : Bool :=
  m.unserved.all fun r => !(decide (r.base ≤ a) && decide (a < r.base + r.size))

/-- `MemRead(addr, 1)` (R12); `none` where there is no byte to read (R70). -/
def Memory.read (m : Memory) (a : Word) : Option Byte :=
  if m.serves a.toNat then lookupCell m.cells a.toNat else none

/-- `MemWrite(addr, 1, v)` (R12); `none` where the platform does not serve the address (R70). -/
def Memory.write (m : Memory) (a : Word) (v : Byte) : Option Memory :=
  if m.serves a.toNat then some { m with cells := insertCell m.cells a.toNat v } else none

/-- Single-byte writes in order (R66, R71). -/
def Memory.writeAll : List (Word × Byte) → Memory → Option Memory
  | [], m => some m
  | (a, v) :: rest, m => (m.write a v).bind fun m' => Memory.writeAll rest m'

/-- Bytes placed at consecutive addresses from outside the machine, for `State.withFetchWord` only. -/
def Memory.place (m : Memory) : Word → List Byte → Memory
  | _, [] => m
  | a, b :: rest => Memory.place { m with cells := insertCell m.cells a.toNat b } (a + 1#32) rest

/-- An address lies in the buffer of `len` bytes at `base`, addresses wrapping modulo 2^32 (R61). -/
def inBuffer (base len a : Word) : Bool := (a - base).ult len

/-- Two buffers have an address in common (R73). -/
def buffersMeet (base len base' len' : Word) : Bool :=
  len != 0#32 && len' != 0#32 && (inBuffer base len base' || inBuffer base' len' base)

end Sys2Proof.Machine
end

