-- ==== Sys2Proof/Machine/Ops.lean ====
section
/-! DEFINITION. The named operations over the state that the meanings share: the result of an operation, register accessors,
the cursor and the BitReader (spec/41_bitreader.md), the end of a command, and taking an error (spec/60_exceptions.md
rules R284, R285), which is what this core has in place of an exception. There is no return from an error: the host's next
`CMD` write is the only way forward (R288, R289). -/

namespace Sys2Proof.Machine

/-! ### Results -/

/-- What an operation answers: a value and the state after it; an error kind raised in the state the detecting step left; or
no step. -/
inductive Res (α : Type) where
  | ok (a : α) (s : State)
  | raised (e : ErrKind) (s : State)
  | stuck (f : Fault)
  deriving DecidableEq, Repr

/-- One operation after another; an error or a stop ends both (R284: "performs no later step"). -/
def Res.bind {α β : Type} : Res α → (α → State → Res β) → Res β
  | .ok a s, g => g a s
  | .raised e s, _ => .raised e s
  | .stuck f, _ => .stuck f

/-- Raise an error kind unless a condition holds. -/
def require (c : Bool) (e : ErrKind) (s : State) : Res Unit := if c then .ok () s else .raised e s

/-! ### Register accessors -/

/-- The registers of element channel ch. -/
def State.ch (s : State) : Ch → ChanRegs
  | .c0 => s.ch0
  | .c1 => s.ch1

/-- Write the registers of element channel ch. -/
def State.setCh (s : State) (c : Ch) (r : ChanRegs) : State :=
  match c with
  | .c0 => { s with ch0 := r }
  | .c1 => { s with ch1 := r }

/-- Write the cursor. -/
def State.setCursor (s : State) (c : Cursor) : State := { s with cursor := c }

/-- Write `DATA_OUT`. -/
def State.setDataOut (s : State) (v : Word) : State := { s with port := { s.port with dataOut := v } }

/-- Write the configuration registers. -/
def State.setCfg (s : State) (c : StreamCfg) : State := { s with cfg := c }

/-- Write the Rice registers. -/
def State.setRice (s : State) (r : Rice) : State := { s with rice := r }

/-- Write the parser registers. -/
def State.setParser (s : State) (p : Parser) : State := { s with parser := p }

/-- Write the host memory. -/
def State.setMem (s : State) (m : Memory) : State := { s with mem := m }

/-- Set what the core reads next, and for which channel. -/
def State.goto (s : State) (g : Stage) (c : Ch) : State := { s with stage := g, chan := c }

/-- The scratch buffers of both channels unspecified (R232, R285). -/
def State.dropScratch (s : State) : State :=
  { s with ch0 := { s.ch0 with res := [], smp := [], low := [] },
           ch1 := { s.ch1 with res := [], smp := [], low := [] } }

/-- The opcode of the command word in `CMD` (R25). -/
def State.op (s : State) : BitVec 4 := s.port.cmd.extractLsb' 0 4

/-- How many channels the element being decoded has: two for a CPE, else one (R238). -/
def State.nch (s : State) : Nat := if s.parser.state = .cpe then 2 else 1

/-! ### Arithmetic of R10 and R11 -/

/-- `sext_N(v)` (R11): bits N-1..0 of v read as an N-bit two's-complement number. -/
def sext (n : Nat) (v : Word) : Word := (v <<< (32 - n)).sshiftRight (32 - n)

/-- -1, 0 or +1 (R188). -/
def signOf (v : Word) : Word := if (0#32).slt v then 1#32 else if v.slt 0#32 then -1#32 else 0#32

/-- Entry i of a scratch buffer; an entry the element has not written is unspecified (R32). -/
def scratchAt (b : List Word) (i : Nat) : Word := b.getD i (Config.freeScratch i)

/-- `BPS`, bytes per output sample (R23): 2 for 16 bits, 3 for 20 and 24, 4 for 32. The four are the only legal depths
(R22); the last row stands for any other value, which no configured core holds. -/
def bytesPerSample (bits : BitVec 8) : Nat :=
  if bits = 16#8 then 2 else if bits = 20#8 ∨ bits = 24#8 then 3 else 4

/-- `BPS` of the configured stream (R23). -/
def State.bps (s : State) : Nat := bytesPerSample s.cfg.bits

/-- `CFG_NUM_CH * BPS`, the bytes of one sample of every channel (R23). -/
def State.frameStride (s : State) : Word := s.cfg.numCh.setWidth 32 * BitVec.ofNat 32 s.bps

/-- `FRAME_BYTES_MAX = CFG_MAX_SAMPLES * CFG_NUM_CH * BPS` (R23). -/
def State.frameBytesMax (s : State) : Word := s.cfg.maxSamples * s.frameStride

/-- Entry c of the channel map, `CHMAP[4c+3:4c]` (R27). -/
def State.slot (s : State) (c : Nat) : Nat := (s.port.chmap.extractLsb' (4 * c) 4).toNat

/-- chanBits (R243): `CFG_BITS - 8*UB`, and one more for a CPE. -/
def State.chanBits (s : State) : Int := s.cfg.bits.toNat - 8 * s.parser.ub.toNat + (s.nch - 1)

/-! ### The cursor and the BitReader -/

/-- `pos = 8*BYTE_IDX + BIT_OFF` (R28). -/
def State.pos (s : State) : Nat := 8 * s.cursor.byteIdx.toNat + s.cursor.bitOff.toNat

/-- The end of the input buffer in bits, `8*IN_LEN`; `IN_LEN` is a length, an unsigned number (log 17, DEDUCED). -/
def State.endPos (s : State) : Nat := 8 * s.port.inLen.toNat

/-- The cursor n bits further on: `BYTE_IDX + (BIT_OFF + n) >>u 3`, `(BIT_OFF + n) & 7` (R122, R130). -/
def Cursor.forward (c : Cursor) (n : Nat) : Cursor :=
  ⟨c.byteIdx + BitVec.ofNat 32 ((c.bitOff.toNat + n) / 8), BitVec.ofNat 3 ((c.bitOff.toNat + n) % 8)⟩

/-- `check_end()` (R127), and `0 ≤ pos` (R28): `BYTE_IDX` is signed, so a negative one is a position below 0 (log 10). -/
def checkEnd (s : State) : Res Unit :=
  if s.cursor.byteIdx.msb ∨ s.endPos < s.pos then .raised .malformedStream s else .ok () s

/-- `advance(n)` (R130): move the cursor forward, then check the end. -/
def advance (n : Nat) (s : State) : Res Unit := checkEnd (s.setCursor (s.cursor.forward n))

/-- `align()` (R130): to the next byte boundary, then check the end. -/
def align (s : State) : Res Unit :=
  if s.cursor.bitOff = 0#3 then checkEnd s else checkEnd (s.setCursor ⟨s.cursor.byteIdx + 1#32, 0#3⟩)

/-- `unread_bits(n)` (R129): back by n bits; below bit 0 it raises and leaves the cursor. A negative `BYTE_IDX` is below bit 0
already (log 10). -/
def unreadBits (n : Nat) (s : State) : Res Unit :=
  if s.cursor.byteIdx.msb ∨ s.pos < n then .raised .malformedStream s
  else .ok () (s.setCursor ⟨BitVec.ofNat 32 ((s.pos - n) / 8), BitVec.ofNat 3 ((s.pos - n) % 8)⟩)

/-- `IN[j]` (R12, R123): 0 without an access at or beyond `IN_LEN`, an unsigned number (log 17, DEDUCED). -/
def State.inByte (s : State) (j : Nat) : Option Byte :=
  if j < s.port.inLen.toNat then s.mem.read (s.port.inAddr + BitVec.ofNat 32 j) else some 0#8

/-- `read16(n)`, n in 0..16 (R122): the n bits at `BIT_OFF` of the 24-bit window at `BYTE_IDX`. -/
def read16 (n : Nat) (s : State) : Res Word :=
  match s.inByte s.cursor.byteIdx.toNat, s.inByte (s.cursor.byteIdx.toNat + 1),
      s.inByte (s.cursor.byteIdx.toNat + 2) with
  | some b0, some b1, some b2 =>
    let window : BitVec 24 := b0 ++ b1 ++ b2
    let r := (window <<< s.cursor.bitOff.toNat) >>> (24 - n)
    (advance n s).bind fun _ s' => .ok (r.setWidth 32) s'
  | _, _, _ => .stuck .busError

/-- `read_bits(n)`, n in 0..32 (R124, R125): one read of up to 16 bits, or the high n-16 bits and then the low 16. -/
def readBits (n : Nat) (s : State) : Res Word :=
  if n ≤ 16 then read16 n s
  else (read16 (n - 16) s).bind fun hi s' => (read16 16 s').bind fun lo s'' => .ok (hi <<< 16 ||| lo) s''

/-- `read_bit()` (R128): it reads one byte only. -/
def readBit (s : State) : Res Bool :=
  match s.inByte s.cursor.byteIdx.toNat with
  | some b => (advance 1 s).bind fun _ s' => .ok (b.getLsbD (7 - s.cursor.bitOff.toNat)) s'
  | none => .stuck .busError

/-! ### The end of a command, and taking an error -/

/-- A command that succeeds (R284): `ERR <- 0`, `BUSY <- 0`, `DONE <- 1`. -/
def State.endCommand (s : State) : State :=
  { s with port := { s.port with busy := false, done := true, err := 0#4 }, stage := .idle }

/-- A coefficient table of unspecified entries (R285, R310): free values, each in the signed 16-bit range (R30). -/
def freeCoefs (d : Nat) : List Word := (List.range 32).map fun j => sext 16 (Config.freeWord (d + j))

/-- The registers of a channel after an error: unspecified (R285), so free values. -/
def ChanRegs.unspecified (d : Nat) : ChanRegs :=
  { mode := (Config.freeWord d).setWidth 4
    quant := (Config.freeWord (d + 1)).setWidth 4
    ricemod := (Config.freeWord (d + 2)).setWidth 3
    ncoef := (Config.freeWord (d + 3)).setWidth 5
    coef := freeCoefs (d + 4)
    res := []
    smp := []
    low := [] }

/-- How many free values an error draws. -/
def errorDraws : Nat := 96

/-- TAKING AN ERROR (R284, R285), the one operation by which every error kind ends its command: `ERR` is the code, `BUSY` 0,
`DONE` 1, `OUT_LEN` 0 for a DECODE; the parser is in HALT (R237). The cursor, the configuration, the host memory and
`DATA_OUT` stay as the detecting step left them. The Rice, parser and channel registers are unspecified from here on
(R285), so they are free values (log 4). -/
def State.raiseError (s : State) (e : ErrKind) : State :=
  { s with
    port := { s.port with busy := false, done := true, err := e.code,
                          outLen := if s.op = 1#4 then 0#32 else s.port.outLen }
    stage := .idle
    rice := ⟨Config.freeWord s.draws, Config.freeWord (s.draws + 1) &&& 1#32, Config.freeWord (s.draws + 2)⟩
    parser := { state := .halt
                ci := (Config.freeWord (s.draws + 3)).toNat
                hwm := Config.freeWord (s.draws + 4)
                n := Config.freeWord (s.draws + 5)
                ub := (Config.freeWord (s.draws + 6)).setWidth 2
                esc := (Config.freeWord (s.draws + 7)).getLsbD 0
                hasSize := (Config.freeWord (s.draws + 8)).getLsbD 0
                mixShift := (Config.freeWord (s.draws + 9)).setWidth 8
                mixWeight := (Config.freeWord (s.draws + 10)).setWidth 8 }
    ch0 := ChanRegs.unspecified (s.draws + 16)
    ch1 := ChanRegs.unspecified (s.draws + 56)
    draws := s.draws + errorDraws }

/-- What an instruction's operation makes of the machine: the state it leaves, the state the error leaves, or no step. -/
def Res.outcome : Res Unit → Host.Outcome State Fault Refusal
  | .ok _ s => .next s
  | .raised e s => .next (s.raiseError e)
  | .stuck f => .fault f

end Sys2Proof.Machine
end

