-- ==== Sys2Proof/Machine/Lzc.lean ====
section
/-! DEFINITION. The leading-zero counter (spec/42_lzc.md) and its unit-test command LZC. -/

namespace Sys2Proof.Machine

/-- The count inside a non-zero byte, by the decision tree of R141: high nibble first, then the patterns 8, 4, 2, 1. -/
def lzByte (byte : BitVec 8) : Nat :=
  let base := if byte &&& 0xF0#8 = 0#8 then 4 else 0
  let nib := if byte &&& 0xF0#8 = 0#8 then byte &&& 0x0F#8 else byte >>> 4
  if nib &&& 8#8 ≠ 0#8 then base
  else if nib &&& 4#8 ≠ 0#8 then base + 1
  else if nib &&& 2#8 ≠ 0#8 then base + 2
  else base + 3

/-- The scan of R141 over the bytes at the given shifts, `out` zeros counted so far. -/
def lzScan (v : Word) : List Nat → Nat → Nat
  | [], _ => 32
  | sh :: rest, out =>
    let byte : BitVec 8 := v.extractLsb' sh 8
    if byte ≠ 0#8 then out + lzByte byte else lzScan v rest (out + 8)

/-- `lz(v)` (R140, R141). -/
def lz (v : Word) : Nat := lzScan v [24, 16, 8, 0] 0

/-- The A and B columns of R82 for a command that takes neither. -/
def argsZero (a b : BitVec 6) : Bool := a == 0#6 && b == 0#6

/-- LZC (R143): `DATA_OUT <- lz(DATA_IN)`. -/
def lzcBody (a b : BitVec 6) (s : State) : Res Unit :=
  (require (argsZero a b) .hostContract s).bind fun _ s =>
    .ok () (s.setDataOut (BitVec.ofNat 32 (lz s.port.dataIn))).endCommand

/-- The instruction LZC. -/
def execLzc (a b : BitVec 6) (s : State) : Host.Outcome State Fault Refusal := (lzcBody a b s).outcome

end Sys2Proof.Machine
end

