-- ==== Sys2Proof/Machine/Operands.lean ====
section
/-! DEFINITION. The operand forms: fields read from the element stream by the BitReader, the value of a Rice codeword, the
byte counts of the skip elements, raw samples, coefficients, and the bytes of an output container. -/

namespace Sys2Proof.Machine

/-- Follow a plan of field reads with the BitReader: `read_bits` (R124, R125), `read_bit` (R128), `unread_bits(1)` (R129). -/
def fetchFields {α : Type} : Fields α → State → Res α
  | .done a, s => .ok a s
  | .field n k, s => (readBits n s).bind fun v s' => fetchFields (k (v.setWidth n)) s'
  | .bit k, s => (readBit s).bind fun b s' => fetchFields (k b) s'
  | .back f, s => (unreadBits 1 s).bind fun _ s' => fetchFields f s'

/-- The value of a codeword (R153, R155): the raw bits of an escape; the unary count for k = 1; otherwise the count times
`((1 << k) - 1) & mask`, plus e - 1 for a suffix e above 1. -/
def codewordValue (k : Nat) (mask : Word) : Codeword → Word
  | .escape v => v
  | .unary x s =>
    if k = 1 then x.setWidth 32
    else
      let base := x.setWidth 32 * (((1#32 <<< k) - 1#32) &&& mask)
      if 1#32 < s then base + (s - 1#32) else base

/-- The byte count of a gap element (R99): the count, or `15 + ext - 1` when it is 15. -/
def gapBytes (cnt : BitVec 4) (ext : Option (BitVec 8)) : Nat :=
  if cnt = 15#4 then 15 + (ext.getD 0#8).toNat - 1 else cnt.toNat

/-- The byte count of a fill element (R100): the count, or `255 + ext` when it is 255. -/
def fillBytes (cnt : BitVec 8) (ext : Option (BitVec 8)) : Nat :=
  if cnt = 255#8 then 255 + (ext.getD 0#8).toNat else cnt.toNat

/-- A coefficient, sign-extended from 16 bits (R94). -/
def coefOf (c : BitVec 16) : Word := c.signExtend 32

/-- `raw_sample()` (R249): S bits sign-extended from bit S-1, read as 16 high bits and the rest when S > 16. -/
def rawSample (size : Nat) (s : State) : Res Word :=
  if size ≤ 16 then (readBits size s).bind fun u s' => .ok (sext size u) s'
  else
    (readBits 16 s).bind fun hi s' => (readBits (size - 16) s').bind fun lo s'' =>
      .ok (sext size (hi <<< (size - 16) ||| lo)) s''

/-- The value x put in a container (R205 to R208): 20-bit samples are scaled by 16; 24- and 32-bit samples take their low
bits back when `UB > 0`. -/
def containerValue (bits : BitVec 8) (ub : BitVec 2) (v low : Word) : Word :=
  if bits = 16#8 then v
  else if bits = 20#8 then v <<< 4
  else if ub = 0#2 then v
  else (v <<< (8 * ub.toNat)) ||| (low &&& ~~~(0xFFFFFFFF#32 <<< (8 * ub.toNat)))

/-- The n low bytes of x, least significant first (R64). -/
def leBytes (n : Nat) (x : Word) : List Byte := (List.range n).map fun k => x.extractLsb' (8 * k) 8

end Sys2Proof.Machine
end

