-- ==== Sys2Proof/Machine/BitReader.lean ====
section
/-! DEFINITION. The unit-test commands of the BitReader: BR_SEEK, BR_READ, BR_READ_BIT, BR_UNREAD (spec/41_bitreader.md rules
R131 to R134). None needs a configuration (D38). -/

namespace Sys2Proof.Machine

/-- The A and B columns of R82 for BR_READ and BR_UNREAD: A in 0..32, B = 0. -/
def readArgs (a b : BitVec 6) : Bool := a.toNat ≤ 32 && b == 0#6

/-- BR_SEEK (R131): the cursor to bit position `DATA_IN`, then the end check. -/
def brSeekBody (a b : BitVec 6) (s : State) : Res Unit :=
  (require (argsZero a b) .hostContract s).bind fun _ s =>
    (checkEnd (s.setCursor ⟨s.port.dataIn >>> 3, s.port.dataIn.setWidth 3⟩)).bind fun _ s => .ok () s.endCommand

/-- BR_READ (R132): `DATA_OUT <- read_bits(A)`. -/
def brReadBody (a b : BitVec 6) (s : State) : Res Unit :=
  (require (readArgs a b) .hostContract s).bind fun _ s =>
    (readBits a.toNat s).bind fun v s => .ok () (s.setDataOut v).endCommand

/-- BR_READ_BIT (R133): `DATA_OUT <- read_bit()`. -/
def brReadBitBody (a b : BitVec 6) (s : State) : Res Unit :=
  (require (argsZero a b) .hostContract s).bind fun _ s =>
    (readBit s).bind fun v s => .ok () (s.setDataOut ((BitVec.ofBool v).setWidth 32)).endCommand

/-- BR_UNREAD (R134): `unread_bits(A)`. -/
def brUnreadBody (a b : BitVec 6) (s : State) : Res Unit :=
  (require (readArgs a b) .hostContract s).bind fun _ s =>
    (unreadBits a.toNat s).bind fun _ s => .ok () s.endCommand

/-- The instruction BR_SEEK. -/
def execBrSeek (a b : BitVec 6) (s : State) : Host.Outcome State Fault Refusal := (brSeekBody a b s).outcome

/-- The instruction BR_READ. -/
def execBrRead (a b : BitVec 6) (s : State) : Host.Outcome State Fault Refusal := (brReadBody a b s).outcome

/-- The instruction BR_READ_BIT. -/
def execBrReadBit (a b : BitVec 6) (s : State) : Host.Outcome State Fault Refusal := (brReadBitBody a b s).outcome

/-- The instruction BR_UNREAD. -/
def execBrUnread (a b : BitVec 6) (s : State) : Host.Outcome State Fault Refusal := (brUnreadBody a b s).outcome

end Sys2Proof.Machine
end

