-- ==== Sys2Proof/Machine/Command.lean ====
section
/-! DEFINITION. The host commands CONFIGURE and DECODE and the reserved command words (spec/46_frame_parser.md rules R231 to
R237, spec/60_exceptions.md rule R283). DECODE starts the frame: it checks, clears the cursor and the parser and leaves the
parser in FETCH_TAG; the elements follow, one step each (R320: a model may interleave the steps of a command). -/

namespace Sys2Proof.Machine

/-- Two of the cookie, input and output buffers meet (R73, R316): a host that starts a command then has no step. The host's
write of `CMD` checks it, and so does the fetch of the command word, for every command and before any other check (log 8). -/
def State.buffersOverlap (s : State) : Bool :=
  buffersMeet s.port.inAddr s.port.inLen s.port.outAddr s.port.outCap ||
    buffersMeet s.port.cookieAddr s.port.cookieLen s.port.inAddr s.port.inLen ||
    buffersMeet s.port.cookieAddr s.port.cookieLen s.port.outAddr s.port.outCap

/-- Bytes 0..9 of the cookie, in order (R231); `none` where one cannot be read (R70). -/
def State.cookie (s : State) : Option (List Byte) :=
  (List.range 10).mapM fun j => s.mem.read (s.port.cookieAddr + BitVec.ofNat 32 j)

/-- Cookie byte j. -/
def cookieByte (b : List Byte) (j : Nat) : Byte := b.getD j 0#8

/-- `ms = {b[0], b[1], b[2], b[3]}`, big-endian (R63, R231). -/
def cookieMax (b : List Byte) : Word :=
  (cookieByte b 0 ++ cookieByte b 1 ++ cookieByte b 2 ++ cookieByte b 3 : BitVec 32)

/-- The checks of R231 in their order: frame size, version, bit depth, channel count. All raise the same error, so their
order does not show (R281). -/
def cookieLegal (b : List Byte) : Bool :=
  cookieMax b != 0#32 && (cookieMax b).toNat ≤ Config.maxFrameLimit && cookieByte b 4 == 0#8 &&
    Config.bitDepths.contains (cookieByte b 5) && cookieByte b 9 != 0#8 &&
    (cookieByte b 9).toNat ≤ Config.maxChannels

/-- The configuration a cookie stands for (R86, R231). -/
def cookieCfg (b : List Byte) : StreamCfg :=
  { maxSamples := cookieMax b, bits := cookieByte b 5, histMult := cookieByte b 6, initHist := cookieByte b 7,
    kmod := cookieByte b 8, numCh := cookieByte b 9, configured := true }

/-- CONFIGURE (R231 to R233): load the configuration from a legal cookie, the scratch buffers then unspecified; clear it and
raise `InvalidConfig` otherwise. A cookie shorter than 12 bytes is not read (D28). -/
def configureBody (a b : BitVec 6) (s : State) : Res Unit :=
  (require (argsZero a b) .hostContract s).bind fun _ s =>
    if s.port.cookieLen.toNat < Config.cookieMinBytes then .raised .invalidConfig (s.setCfg .clear)
    else
      match s.cookie with
      | none => .stuck .busError
      | some bytes =>
        if cookieLegal bytes then .ok () (s.setCfg (cookieCfg bytes)).dropScratch.endCommand
        else .raised .invalidConfig (s.setCfg .clear)

/-- The preconditions of DECODE (R235, R236), in the order of R283: configured, the output buffer large enough, every
channel-map entry c < C below C. -/
def State.decodeReady (s : State) : Bool :=
  s.cfg.configured && !(s.port.outCap.ult s.frameBytesMax) &&
    (List.range s.cfg.numCh.toNat).all fun c => s.slot c < s.cfg.numCh.toNat

/-- The start of a frame (R234): cursor, `CI`, `HWM` and `OUT_LEN` 0, the parser in FETCH_TAG. -/
def State.startFrame (s : State) : State :=
  { s with cursor := ⟨0#32, 0#3⟩
           parser := { s.parser with ci := 0, hwm := 0#32, state := .fetchTag }
           port := { s.port with outLen := 0#32 }
           stage := .element }

/-- DECODE (R234 to R236): check the command, then start the frame. -/
def decodeBody (a b : BitVec 6) (s : State) : Res Unit :=
  (require (argsZero a b && s.decodeReady) .hostContract s).bind fun _ s => .ok () s.startFrame

/-- The instruction CONFIGURE. -/
def execConfigure (a b : BitVec 6) (s : State) : Host.Outcome State Fault Refusal := (configureBody a b s).outcome

/-- The instruction DECODE. -/
def execDecode (a b : BitVec 6) (s : State) : Host.Outcome State Fault Refusal := (decodeBody a b s).outcome

/-- The instruction RESERVED_OP (R283): it raises `HostContract`, whatever the word. -/
def execReservedOp (_w : BitVec 32) (s : State) : Host.Outcome State Fault Refusal :=
  (Res.raised .hostContract s : Res Unit).outcome

end Sys2Proof.Machine
end

