-- ==== Sys2Proof/Machine/Unmix.lean ====
section
/-! DEFINITION. The stereo unmixer and the PCM output (spec/45_unmix.md): the bytes an audio element writes, in order. -/

namespace Sys2Proof.Machine

/-- The unmix of one sample pair (R201, R202): (left, right). -/
def unmix (weight shift : BitVec 8) (a b : Word) : Word × Word :=
  if weight = 0#8 then (a, b)
  else
    let right := a - (b * weight.setWidth 32).sshiftRight shift.toNat
    (right + b, right)

/-- The channel values of sample i of the element (R200, R209), channel 0 first. -/
def State.channelValues (s : State) (i : Nat) : List Word :=
  if s.nch = 2 then
    let lr := unmix s.parser.mixWeight s.parser.mixShift (scratchAt s.ch0.smp i) (scratchAt s.ch1.smp i)
    [lr.1, lr.2]
  else [scratchAt s.ch0.smp i]

/-- The low-bit values of sample i (R209), channel 0 first. -/
def State.lowValues (s : State) (i : Nat) : List Word :=
  if s.nch = 2 then [scratchAt s.ch0.low i, scratchAt s.ch1.low i] else [scratchAt s.ch0.low i]

/-- The address of sample i of decode channel c (R204): `OUT_ADDR + (i*C + slot)*BPS`, wrapping modulo 2^32 (R61). -/
def State.sampleAddr (s : State) (i c : Nat) : Word :=
  s.port.outAddr + BitVec.ofNat 32 ((i * s.cfg.numCh.toNat + s.slot c) * s.bps)

/-- The bytes of one sample of one channel (R204 to R208), lowest address first. -/
def State.sampleBytes (s : State) (i c : Nat) (v low : Word) : List (Word × Byte) :=
  (leBytes s.bps (containerValue s.cfg.bits s.parser.ub v low)).zipIdx.map fun (b, k) =>
    (s.sampleAddr i c + BitVec.ofNat 32 k, b)

/-- The bytes of sample i: each channel of the element in order (R214). -/
def State.frameBytes (s : State) (i : Nat) : List (Word × Byte) :=
  ((s.channelValues i).zip (s.lowValues i)).zipIdx.flatMap fun (vl, ch) =>
    s.sampleBytes i (s.parser.ci + ch) vl.1 vl.2

/-- All the bytes the element writes, in order (R214). -/
def State.elementBytes (s : State) : List (Word × Byte) :=
  (List.range s.parser.n.toNat).flatMap s.frameBytes

/-- The end of an audio element (R238, R256): its output is written, `CI` grows by its channels, and the parser reads the next
tag. -/
def finishElement (s : State) : Res Unit :=
  match Memory.writeAll s.elementBytes s.mem with
  | none => .stuck .busError
  | some m =>
    .ok () (((s.setMem m).setParser { s.parser with ci := s.parser.ci + s.nch, state := .fetchTag }).goto .element .c0)

end Sys2Proof.Machine
end

