-- ==== Sys2Proof/Machine/Element.lean ====
section
/-! DEFINITION. The elements of a frame (spec/46_frame_parser.md rules R238 to R254), read by the parser at the cursor: audio
elements (SCE, CPE, LFE), the skips (GAP, FILL), the unsupported tags (CCE, PCE) and END. A compressed audio element stops
after its mix fields: its predictor headers and codewords follow, one step each (R105). -/

namespace Sys2Proof.Machine

/-- The stereo defect applies on the path of this sample size (R250). -/
def escBugOn (bug : EscBug) (size : Nat) : Bool :=
  match bug with
  | .le16 => size ≤ 16
  | .gt16 => 16 < size
  | .both => true
  | .clean => false

/-- The raw samples of n sample times (R248): channel 0, then channel 1 of a CPE, which takes channel 0's value where the
defect applies (R250). -/
def rawSamples (nch size : Nat) (bug : Bool) : Nat → State → Res (List (Word × Word))
  | 0, s => .ok [] s
  | n + 1, s =>
    (rawSample size s).bind fun a s =>
      (if nch = 2 then rawSample size s else .ok 0#32 s).bind fun b s =>
        (rawSamples nch size bug n s).bind fun l s => .ok ((a, if bug then a else b) :: l) s

/-- The body of a not-compressed element (R248): `UB`, `MIX_SHIFT` and `MIX_WEIGHT` are 0, the samples are read raw, and the
element ends. -/
def escapedBody (s : State) : Res Unit :=
  let s := s.setParser { s.parser with ub := 0#2, mixShift := 0#8, mixWeight := 0#8 }
  let size := s.cfg.bits.toNat
  (rawSamples s.nch size (escBugOn s.params.escBug size) s.parser.n.toNat s).bind fun l s =>
    let s := s.setCh .c0 { s.ch0 with smp := l.map (·.1) }
    finishElement (if s.nch = 2 then s.setCh .c1 { s.ch1 with smp := l.map (·.2) } else s)

/-- The mix fields are legal (R203): a CPE's weight is below 128, and its shift below 32 unless the weight is 0. -/
def mixLegal (nch : Nat) (shift weight : BitVec 8) : Bool :=
  nch != 2 || (weight.toNat < 128 && (weight == 0#8 || shift.toNat < 32))

/-- The start of a compressed element (R241 to R244): the checks of `UB` and chanBits, the mix fields, the checks of the mix
fields and of `CFG_KMOD`; the predictor header of channel 0 follows. -/
def compressedBody (s : State) : Res Unit :=
  (require (!(s.parser.ub != 0#2 && s.cfg.bits.toNat < 24)) .malformedStream s).bind fun _ s =>
  (require (1 ≤ s.chanBits && s.chanBits ≤ 32) .malformedStream s).bind fun _ s =>
  (readBits 8 s).bind fun shift s =>
  (readBits 8 s).bind fun weight s =>
  let s := s.setParser { s.parser with mixShift := shift.setWidth 8, mixWeight := weight.setWidth 8 }
  (require (mixLegal s.nch s.parser.mixShift s.parser.mixWeight) .malformedStream s).bind fun _ s =>
  (require (s.cfg.kmod.toNat < 32) .malformedStream s).bind fun _ s =>
    .ok () (s.goto .predictor .c0)

/-- The larger high-water mark (R255). -/
def maxHwm (a b : Word) : Word := if a.slt b then b else a

/-- `audio_element(nch)` after its header is read (R238): the count check, the channel budget and the high-water mark, then the
body. -/
def audioBody (st : ParserState) (h : AudioHeader) (s : State) : Res Unit :=
  let n := h.count.getD s.cfg.maxSamples
  let s := s.setParser { s.parser with state := st, hasSize := h.count.isSome, ub := h.ub, esc := h.esc, n := n }
  (require (!(s.cfg.maxSamples.ult n)) .bufferOverrun s).bind fun _ s =>
  (require (s.parser.ci + s.nch ≤ s.cfg.numCh.toNat) .malformedStream s).bind fun _ s =>
  let s := s.setParser { s.parser with hwm := maxHwm s.parser.hwm (n * s.frameStride) }
  if h.esc then escapedBody s else compressedBody s

/-- `gap()` after its fields are read (R252): skip the bytes, no alignment. -/
def gapBody (cnt : BitVec 4) (ext : Option (BitVec 8)) (s : State) : Res Unit :=
  (advance (8 * gapBytes cnt ext) (s.setParser { s.parser with state := .gap })).bind fun _ s =>
    .ok () ((s.setParser { s.parser with state := .fetchTag }).goto .element .c0)

/-- `fill()` after its fields are read (R253): align when the flag is set, then skip the bytes. -/
def fillBody (al : Bool) (cnt : BitVec 8) (ext : Option (BitVec 8)) (s : State) : Res Unit :=
  let s := s.setParser { s.parser with state := .fill }
  (if al then align s else .ok () s).bind fun _ s =>
    (advance (8 * fillBytes cnt ext) s).bind fun _ s =>
      .ok () ((s.setParser { s.parser with state := .fetchTag }).goto .element .c0)

/-- Tag 7 (R254): flush to the byte boundary; the bytes consumed must be `IN_LEN`; then `OUT_LEN <- HWM`, and the command
ends in success (R284). -/
def endBody (s : State) : Res Unit :=
  (align (s.setParser { s.parser with state := .endCheck })).bind fun _ s =>
    (require (s.cursor.byteIdx == s.port.inLen) .malformedStream s).bind fun _ s =>
      let s := s.setParser { s.parser with state := .halt }
      .ok () { s with port := { s.port with outLen := s.parser.hwm } }.endCommand

/-- The instruction SCE (tag 0). -/
def execSce (h : AudioHeader) (s : State) : Host.Outcome State Fault Refusal := (audioBody .sce h s).outcome

/-- The instruction CPE (tag 1). -/
def execCpe (h : AudioHeader) (s : State) : Host.Outcome State Fault Refusal := (audioBody .cpe h s).outcome

/-- The instruction LFE (tag 3), decoded exactly as SCE (R89). -/
def execLfe (h : AudioHeader) (s : State) : Host.Outcome State Fault Refusal := (audioBody .sce h s).outcome

/-- The instruction CCE (tag 2): `UnsupportedElement` (R251). -/
def execCce (s : State) : Host.Outcome State Fault Refusal := (Res.raised .unsupportedElement s : Res Unit).outcome

/-- The instruction PCE (tag 5): `UnsupportedElement` (R251). -/
def execPce (s : State) : Host.Outcome State Fault Refusal := (Res.raised .unsupportedElement s : Res Unit).outcome

/-- The instruction GAP. -/
def execGap (cnt : BitVec 4) (ext : Option (BitVec 8)) (s : State) : Host.Outcome State Fault Refusal :=
  (gapBody cnt ext s).outcome

/-- The instruction FILL; its instance field is ignored (R100). -/
def execFill (_inst : BitVec 4) (al : Bool) (cnt : BitVec 8) (ext : Option (BitVec 8)) (s : State) :
    Host.Outcome State Fault Refusal :=
  (fillBody al cnt ext s).outcome

/-- The instruction END (tag 7). -/
def execEnd (s : State) : Host.Outcome State Fault Refusal := (endBody s).outcome

end Sys2Proof.Machine
end

