-- ==== Sys2Proof/Machine/Fir.lean ====
section
/-! DEFINITION. The adaptive FIR predictor (spec/44_fir.md), a function of its source, coefficient table and parameters. The
samples reconstructed so far are held newest first, so that `dst[i-1-j]` is entry j of the list (R181). -/

namespace Sys2Proof.Machine

/-- First differences summed up: `dst[i] <- sext_cb(dst[i-1] + src[i])` (R184, R185), `prev` being `dst[i-1]`. -/
def firstDiff (cb : Nat) : Word → List Word → List Word
  | _, [] => []
  | prev, x :: rest => sext cb (prev + x) :: firstDiff cb (sext cb (prev + x)) rest

/-- The weighted sum of R181: `sum + (dst[i-1-j] - top) * coef[j]` over the n coefficients. -/
def weightedSum (top : Word) : List Word → List Word → Word
  | d :: ds, c :: cs => (d - top) * c + weightedSum top ds cs
  | _, _ => 0#32

/-- A coefficient lies in the signed 16-bit range (R30). -/
def coefInRange (c : Word) : Bool := decide (-32768 ≤ c.toInt) && decide (c.toInt ≤ 32767)

/-- The walk of R188 over the pairs (`coef[j]`, `dst[i-1-j]`) from j = n-1 down, `wt` being n - j: positive errors when
`neg` is false, negative ones when it is true. It stops when the error budget is empty; `none` when a coefficient would
leave its range (R189). -/
def adaptWalk (neg : Bool) (q : Nat) (top : Word) : List (Word × Word) → Nat → Word → Option (List Word)
  | [], _, _ => some []
  | (c, d) :: rest, wt, e =>
    if (if neg then e.slt 0#32 else (0#32).slt e) then
      let v := top - d
      let sg := if neg then -(signOf v) else signOf v
      let c' := c - sg
      if coefInRange c' then
        (adaptWalk neg q top rest (wt + 1) (e - (v * sg).sshiftRight q * BitVec.ofNat 32 wt)).map (c' :: ·)
      else none
    else some (((c, d) :: rest).map (·.1))

/-- The adaptation of the n coefficients after a sample with residual e (R188), `hist` being the samples before it, newest
first. -/
def adapt (q : Nat) (top e : Word) (hist coefs : List Word) : Option (List Word) :=
  let pairs := (coefs.zip hist).reverse
  if (0#32).slt e then (adaptWalk false q top pairs 1 e).map List.reverse
  else if e.slt 0#32 then (adaptWalk true q top pairs 1 e).map List.reverse
  else some coefs

/-- One predicted sample (R186): the rounded and shifted sum, the base and the residual, sign-extended. -/
def predict (cb n q : Nat) (e : Word) (hist coefs : List Word) : Word :=
  let top := hist.getD n (Config.freeScratch n)
  sext cb ((weightedSum top hist coefs + (1#32 <<< (q - 1))).sshiftRight q + top + e)

/-- The general loop (R181) over the residuals left, the samples so far newest first, and the n coefficients in use: the
samples and coefficients at the end; `none` where it raises (R189, R190). -/
def firLoop (cb n q : Nat) : List Word → List Word → List Word → Option (List Word × List Word)
  | [], hist, coefs => some (hist, coefs)
  | e :: rest, hist, coefs =>
    if q = 0 then none
    else
      match adapt q (hist.getD n (Config.freeScratch n)) e hist coefs with
      | none => none
      | some coefs' => firLoop cb n q rest (predict cb n q e hist coefs :: hist) coefs'

/-- `fir(src, dst, N, cb, coef, n, q)` (R181), N being the length of `src`: `dst` and the table afterwards; `none` where it
raises `MalformedStream`. -/
def fir (cb n q : Nat) (src coef : List Word) : Option (List Word × List Word) :=
  match src with
  | [] => some ([], coef)
  | x :: rest =>
    if n = 0 then some (x :: rest, coef)
    else if n = 31 then some (x :: firstDiff cb x rest, coef)
    else
      let warm := x :: firstDiff cb x (rest.take n)
      match firLoop cb n q (rest.drop n) warm.reverse (coef.take n) with
      | none => none
      | some (hist, coefs) => some (hist.reverse, coefs ++ coef.drop n)

/-- The reconstruction of one channel (R191, R247): the first-difference pass over `RES[ch]` in place when `MODE[ch] ≠ 0`,
then the pass with the coefficient table into `SMP[ch]`. -/
def reconstructChan (cb : Nat) (r : ChanRegs) : Option ChanRegs :=
  match (if r.mode = 0#4 then some (r.res, r.coef) else fir cb 31 0 r.res r.coef) with
  | none => none
  | some (res, _) =>
    match fir cb r.ncoef.toNat r.quant.toNat res r.coef with
    | none => none
    | some (smp, coef) => some { r with res := res, smp := smp, coef := coef }

end Sys2Proof.Machine
end

