-- ==== Sys2Proof/Machine/Rice.lean ====
section
/-! DEFINITION. The Rice entropy decoder's arithmetic (spec/43_rice.md) and its unit-test command RICE_VALUE. The run over one
channel is made of one step per codeword (Machine/Residual.lean). -/

namespace Sys2Proof.Machine

/-- `K` (R152): `k0 = 31 - kmod - lz((HISTORY >>a 9) + 3)`; `k0 + kmod` when negative, else `kmod`. -/
def riceK (history kmod : Word) : Word :=
  let k0 := 31#32 - kmod - BitVec.ofNat 32 (lz (history.sshiftRight 9 + 3#32))
  if k0.slt 0#32 then k0 + kmod else kmod

/-- The parameter of a zero run (R162): `lz(HISTORY) + (HISTORY + 16) / 64 - 24`. -/
def zeroRunK (history : Word) : Word :=
  BitVec.ofNat 32 (lz history) + (history + 16#32).sdiv 64#32 - 24#32

/-- `pb = (RICEMOD[ch] * CFG_HIST_MULT) / 4` (R151). -/
def ricePb (ricemod : BitVec 3) (histMult : BitVec 8) : Word :=
  (ricemod.setWidth 32 * histMult.setWidth 32).sdiv 4#32

/-- `kmask = (1 << kmod) - 1` (R151). -/
def riceMask (kmod : Nat) : Word := (1#32 <<< kmod) - 1#32

/-- The sign mapping (R157): `(d + 1) / 2`, negated when d is odd. -/
def unzigzag (d : Word) : Word :=
  let f := (d + 1#32).sdiv 2#32
  if d &&& 1#32 ≠ 0#32 then -f else f

/-- `HISTORY` after the value d (R158), clamped to 0xFFFF when d is above 0xFFFF. -/
def historyAfter (history d pb : Word) : Word :=
  if (0xFFFF#32).slt d then 0xFFFF#32 else history + d * pb - (history * pb).sshiftRight 9

/-- `decode_value(w, k, mask)` (R153) from the stream, for k ≥ 0. -/
def decodeValue (w k : Nat) (mask : Word) (s : State) : Res Word :=
  (fetchFields (codewordFields w k) s).bind fun c s' => .ok (codewordValue k mask c) s'

/-- The A and B columns of R82 for RICE_VALUE: A in 1..32, B in 0..31. -/
def riceArgs (a b : BitVec 6) : Bool := 1 ≤ a.toNat && a.toNat ≤ 32 && b.toNat ≤ 31

/-- RICE_VALUE (R159): `DATA_OUT <- decode_value(A, B, DATA_IN)`. -/
def riceValueBody (a b : BitVec 6) (s : State) : Res Unit :=
  (require (riceArgs a b) .hostContract s).bind fun _ s =>
    (decodeValue a.toNat b.toNat s.port.dataIn s).bind fun v s => .ok () (s.setDataOut v).endCommand

/-- The instruction RICE_VALUE. -/
def execRiceValue (a b : BitVec 6) (s : State) : Host.Outcome State Fault Refusal := (riceValueBody a b s).outcome

end Sys2Proof.Machine
end

