-- ==== Sys2Proof/Machine/Residual.lean ====
section
/-! DEFINITION. The channel run (spec/43_rice.md rules R160 to R164), one step per codeword: RICE_UNARY and RICE_ESCAPE
store one residual, ZERO_RUN a run of zeros. When a channel has its N residuals the predictor runs (R247), and after the
last channel the element's output is written (R238). The index c of the rule is the length of `RES[ch]` less one. -/

namespace Sys2Proof.Machine

/-- Append entries to `RES[ch]` of the channel being decoded. -/
def State.pushRes (s : State) (l : List Word) : State :=
  s.setCh s.chan { s.ch s.chan with res := (s.ch s.chan).res ++ l }

/-- Run the predictor over the residuals of channel c (R247). -/
def reconstruct (c : Ch) (s : State) : Res Unit :=
  match reconstructChan s.chanBits.toNat (s.ch c) with
  | none => .raised .malformedStream s
  | some r => .ok () (s.setCh c r)

/-- The start of a channel run (R160): `HISTORY <- CFG_INIT_HIST`, `SIGN_MOD <- 0`, no residual stored. -/
def State.initRun (s : State) (c : Ch) : State :=
  ((s.setRice { s.rice with history := s.cfg.initHist.setWidth 32, signMod := 0#32 }).setCh c
    { s.ch c with res := [] }).goto .residual c

/-- After the residuals of the element's last channel: predict, then write the output. -/
def lastChannelDone (c : Ch) (s : State) : Res Unit := (reconstruct c s).bind fun _ s => finishElement s

/-- Begin the run of channel 1 of a CPE; an element of no samples reads no codeword (R160). -/
def beginSecondRun (s : State) : Res Unit :=
  if s.parser.n = 0#32 then lastChannelDone .c1 (s.initRun .c1) else .ok () (s.initRun .c1)

/-- After the residuals of channel 0: predict, then the second channel of a CPE or the output (R247). -/
def firstChannelDone (s : State) : Res Unit :=
  (reconstruct .c0 s).bind fun _ s => if s.nch = 2 then beginSecondRun s else finishElement s

/-- Begin the run of channel 0. -/
def beginFirstRun (s : State) : Res Unit :=
  if s.parser.n = 0#32 then firstChannelDone (s.initRun .c0) else .ok () (s.initRun .c0)

/-- After the residuals of the channel being decoded. -/
def channelDone (s : State) : Res Unit :=
  match s.chan with
  | .c0 => firstChannelDone s
  | .c1 => lastChannelDone .c1 s

/-- The next value of the run, or the end of the channel when all N are stored (R160). -/
def nextValue (s : State) : Res Unit :=
  if (s.ch s.chan).res.length < s.parser.n.toNat then .ok () (s.goto .residual s.chan) else channelDone s

/-- The mask of a zero run, `(1 << CFG_KMOD) - 1` (R151, R163). -/
def State.zeroRunMask (s : State) : Word := riceMask s.cfg.kmod.toNat

/-- `K` of the next value (R152). -/
def State.nextK (s : State) : Word := riceK s.rice.history (s.cfg.kmod.setWidth 32)

/-- `pb` of the channel being decoded (R151). -/
def State.pb (s : State) : Word := ricePb (s.ch s.chan).ricemod s.cfg.histMult

/-- The registers after one value (R160): `RES[ch][c] <- f`, `SIGN_MOD <- 0`, `HISTORY` and `K` updated; d is the codeword's
value plus `SIGN_MOD`. -/
def State.storeValue (s : State) (d : Word) : State :=
  (s.pushRes [unzigzag d]).setRice
    { history := historyAfter s.rice.history d s.pb, signMod := 0#32, k := s.nextK }

/-- One value of the run (R160): store it, then a zero run follows when `HISTORY < 128` and more than one value remains
(R161), else the next value. -/
def residualBody (c : Codeword) (s : State) : Res Unit :=
  let s' := s.storeValue (codewordValue s.nextK.toNat 0xFFFFFFFF#32 c + s.rice.signMod)
  if s'.rice.history.slt 128#32 ∧ (s'.ch s.chan).res.length < s.parser.n.toNat then .ok () (s'.goto .zeroRun s.chan)
  else nextValue s'

/-- A zero run (R163): `SIGN_MOD <- 1`, bs zeros are stored, `HISTORY <- 0`; a run past the element's N samples raises
`BufferOverrun`. -/
def zeroRunBody (c : Codeword) (s : State) : Res Unit :=
  let bs := codewordValue (zeroRunK s.rice.history).toNat s.zeroRunMask c
  let zeros := if (0#32).slt bs then bs.toNat else 0
  if 0 < zeros ∧ s.parser.n.toNat < (s.ch s.chan).res.length + zeros then .raised .bufferOverrun s
  else
    nextValue ((s.pushRes (List.replicate zeros 0#32)).setRice
      { s.rice with history := 0#32, signMod := if (0xFFFF#32).slt bs then 0#32 else 1#32 })

/-- The instruction RICE_UNARY. -/
def execRiceUnary (x : BitVec 4) (sfx : BitVec 32) (s : State) : Host.Outcome State Fault Refusal :=
  (residualBody (.unary x sfx) s).outcome

/-- The instruction RICE_ESCAPE. -/
def execRiceEscape (v : BitVec 32) (s : State) : Host.Outcome State Fault Refusal :=
  (residualBody (.escape v) s).outcome

/-- The instruction ZERO_RUN. -/
def execZeroRun (cw : Codeword) (s : State) : Host.Outcome State Fault Refusal := (zeroRunBody cw s).outcome

end Sys2Proof.Machine
end

