-- ==== Sys2Proof/Machine/Predictor.lean ====
section
/-! DEFINITION. Predictor headers (spec/46_frame_parser.md rules R245 and R246): a header loads the registers and the
coefficient table of its channel; after the last header the low-bit planes are read and the run of channel 0 begins. -/

namespace Sys2Proof.Machine

/-- The low-bit values of n samples (R246): for each sample channel 0, then channel 1 of a CPE. -/
def lowPlanes (nch width : Nat) : Nat → State → Res (List (Word × Word))
  | 0, s => .ok [] s
  | n + 1, s =>
    (readBits width s).bind fun a s =>
      (if nch = 2 then readBits width s else .ok 0#32 s).bind fun b s =>
        (lowPlanes nch width n s).bind fun l s => .ok ((a, b) :: l) s

/-- Read the low-bit planes into `LOW[ch]` when `UB > 0` (R246). -/
def readLowPlanes (s : State) : Res Unit :=
  if s.parser.ub = 0#2 then .ok () s
  else
    (lowPlanes s.nch (8 * s.parser.ub.toNat) s.parser.n.toNat s).bind fun l s =>
      let s := s.setCh .c0 { s.ch0 with low := l.map (·.1) }
      .ok () (if s.nch = 2 then s.setCh .c1 { s.ch1 with low := l.map (·.2) } else s)

/-- Write the coefficients to entries 0.. of the table (R94, R245). -/
def loadCoefs (cs : List (BitVec 16)) (table : List Word) : List Word := cs.map coefOf ++ table.drop cs.length

/-- The header registers of a channel (R245). -/
def ChanRegs.loadHeader (r : ChanRegs) (mode quant : BitVec 4) (ricemod : BitVec 3) (ncoef : BitVec 5)
    (cs : List (BitVec 16)) : ChanRegs :=
  { r with mode := mode, quant := quant, ricemod := ricemod, ncoef := ncoef, coef := loadCoefs cs r.coef }

/-- A predictor header (R245): load it; then the header of channel 1 of a CPE, or the low-bit planes and the residuals of
channel 0 (R241). -/
def predictorBody (mode quant : BitVec 4) (ricemod : BitVec 3) (ncoef : BitVec 5) (cs : List (BitVec 16))
    (s : State) : Res Unit :=
  let s := s.setCh s.chan ((s.ch s.chan).loadHeader mode quant ricemod ncoef cs)
  if s.chan = .c0 ∧ s.nch = 2 then .ok () (s.goto .predictor .c1)
  else (readLowPlanes s).bind fun _ s => beginFirstRun s

/-- The instruction PRED_COPY: mode 0, no coefficient (R182). -/
def execPredCopy (q : BitVec 4) (r : BitVec 3) (s : State) : Host.Outcome State Fault Refusal :=
  (predictorBody 0#4 q r 0#5 [] s).outcome

/-- The instruction PRED_FIRST_DIFF: mode 0, `ncoef` 31 (R185). -/
def execPredFirstDiff (q : BitVec 4) (r : BitVec 3) (cs : List (BitVec 16)) (s : State) :
    Host.Outcome State Fault Refusal :=
  (predictorBody 0#4 q r 31#5 cs s).outcome

/-- The instruction PRED_ADAPTIVE: mode 0, `ncoef` 1..30 (R181). -/
def execPredAdaptive (q : BitVec 4) (r : BitVec 3) (n : BitVec 5) (cs : List (BitVec 16)) (s : State) :
    Host.Outcome State Fault Refusal :=
  (predictorBody 0#4 q r n cs s).outcome

/-- The instruction PRED_PREPASS: mode ≠ 0 (R191). -/
def execPredPrepass (m q : BitVec 4) (r : BitVec 3) (n : BitVec 5) (cs : List (BitVec 16)) (s : State) :
    Host.Outcome State Fault Refusal :=
  (predictorBody m q r n cs s).outcome

end Sys2Proof.Machine
end

