-- ==== Sys2Proof/Machine/Dispatch.lean ====
section
/-! DEFINITION. The meaning of each instruction, one arm per constructor of Instr. -/

namespace Sys2Proof.Machine

def exec (i : Instr) (s : State) : Host.Outcome State Fault Refusal :=
  match i with
  -- host commands
  | .configure a b => Sys2Proof.Machine.execConfigure a b s
  | .decode a b => Sys2Proof.Machine.execDecode a b s
  | .brSeek a b => Sys2Proof.Machine.execBrSeek a b s
  | .brRead a b => Sys2Proof.Machine.execBrRead a b s
  | .brReadBit a b => Sys2Proof.Machine.execBrReadBit a b s
  | .brUnread a b => Sys2Proof.Machine.execBrUnread a b s
  | .lzc a b => Sys2Proof.Machine.execLzc a b s
  | .riceValue a b => Sys2Proof.Machine.execRiceValue a b s
  | .reservedOp w => Sys2Proof.Machine.execReservedOp w s
  -- elements
  | .sce h => Sys2Proof.Machine.execSce h s
  | .cpe h => Sys2Proof.Machine.execCpe h s
  | .cce => Sys2Proof.Machine.execCce s
  | .lfe h => Sys2Proof.Machine.execLfe h s
  | .gap cnt ext => Sys2Proof.Machine.execGap cnt ext s
  | .pce => Sys2Proof.Machine.execPce s
  | .fill inst align cnt ext => Sys2Proof.Machine.execFill inst align cnt ext s
  | .endElement => Sys2Proof.Machine.execEnd s
  -- predictor headers
  | .predCopy q r => Sys2Proof.Machine.execPredCopy q r s
  | .predFirstDiff q r cs => Sys2Proof.Machine.execPredFirstDiff q r cs s
  | .predAdaptive q r n cs => Sys2Proof.Machine.execPredAdaptive q r n cs s
  | .predPrepass m q r n cs => Sys2Proof.Machine.execPredPrepass m q r n cs s
  -- Rice codewords
  | .riceUnary x e => Sys2Proof.Machine.execRiceUnary x e s
  | .riceEscape v => Sys2Proof.Machine.execRiceEscape v s
  | .zeroRun cw => Sys2Proof.Machine.execZeroRun cw s

end Sys2Proof.Machine
end

