-- ==== Sys2Proof/Machine/Fetch.lean ====
section
/-! DEFINITION. How the core comes to its next instruction: the command word in `CMD` (R230), or the part of the element stream
at the cursor that the parser has come to (R13, R28, R105). -/

namespace Sys2Proof.Machine

/-- `K` of the next value and the parameter of a zero run, as the machine holds them (R152, R162). -/
def State.riceParam (s : State) : Word :=
  match s.stage with
  | .zeroRun => zeroRunK s.rice.history
  | _ => riceK s.rice.history (s.cfg.kmod.setWidth 32)

/-- The form of the stream the parser reads next; none when it reads nothing from the stream. -/
def State.form (s : State) : Option Form :=
  match s.stage with
  | .element => some (.element s.params.filDse)
  | .predictor => some .predictor
  | .residual => some (.codeword s.chanBits.toNat s.riceParam.toNat)
  | .zeroRun => some (.zeroRun s.riceParam.toNat)
  | .idle | .command => none

/-- A codeword is due and its parameter is negative (R165). -/
def State.badParam (s : State) : Bool :=
  (s.stage = .residual || s.stage = .zeroRun) && s.riceParam.slt 0#32

/-- The instruction at the cursor, read by the BitReader; a negative Rice parameter raises `MalformedStream` before any bit is
read (R153, R165). -/
def fetchStream (f : Form) (s : State) : Res Instr :=
  if s.badParam then .raised .malformedStream s else fetchFields (formFields f) s

/-- The command word; a command has no step while two of the buffers overlap (R73). No write of `CMD` leads to such a state
(`State.hostWriteReg`). -/
def fetchCommand (s : State) : Res Instr :=
  if s.buffersOverlap then .stuck .buffersOverlap else .ok (decodeCommand s.port.cmd) s

/-- The next instruction, and the state after its bits are read. -/
def fetch (s : State) : Res Instr :=
  match s.form with
  | some f => fetchStream f s
  | none => fetchCommand s

/-- Bytes from bits, eight at a time, the last one filled up with zeros: for `State.withFetchWord` only. -/
def packBytes : Nat → List Bool → List Byte
  | 0, _ => []
  | n + 1, bits => BitVec.ofNat 8 (natOfBits ((bits ++ List.replicate 8 false).take 8)) :: packBytes n (bits.drop 8)

/-- The stage in which a form is read. -/
def stageOf : Form → Stage
  | .command => .command
  | .element _ => .element
  | .predictor => .predictor
  | .codeword _ _ => .residual
  | .zeroRun _ => .zeroRun

/-- The parser state in which a form is read: FETCH_TAG for an element, the body of an SCE for the rest (R237). -/
def parserStateOf : Form → ParserState
  | .command => .halt
  | .element _ => .fetchTag
  | _ => .sce

/-- A command word in `CMD`, as a host write leaves it (R230), the host done (log 2). -/
def State.withCommand (s : State) (w : Word) : State :=
  { s with port := { s.port with cmd := w, busy := true, done := false, err := 0#4 }, stage := .command, host := [] }

/-- A part of the element stream in the input buffer at `IN_ADDR`, the cursor at its first bit, and the parser of a running
DECODE at the place where it is read; the tags have the assignment the bits were written for, and the host is done
(log 12). -/
def State.withStream (s : State) (f : Form) (bits : List Bool) : State :=
  { s with
    port := { s.port with cmd := 1#32, busy := true, done := false, err := 0#4, inLen := BitVec.ofNat 32 (longestBits / 8) }
    cursor := ⟨0#32, 0#3⟩
    parser := { s.parser with state := parserStateOf f }
    mem := s.mem.place s.port.inAddr (packBytes (longestBits / 8) bits)
    params := { s.params with filDse := .doc }
    stage := stageOf f
    chan := .c0
    host := [] }

end Sys2Proof.Machine
end

