-- ==== Sys2Proof/Machine/HostPort.lean ====
section
/-! DEFINITION. What the host does to the core: register writes and reads (spec/10_state.md rules R24 to R27,
spec/20_memory.md rules R67, R71, R73, R75), writes and reads of host memory, and the reset input
(spec/70_reset_and_hazards.md rule R310). -/

namespace Sys2Proof.Machine

/-- The offset of a bus address in the register block, for an aligned 32-bit access inside it (R60, R67); `none` otherwise. -/
def State.regOffset (s : State) (addr : Word) (width : Nat) : Option Nat :=
  let off := (addr - s.params.coreBase).toNat
  if width = 4 ∧ off < 256 ∧ off % 4 = 0 then some off else none

/-- A write of v to the register at an offset (R24). While `BUSY = 1` only `STATUS` and `CTRL` are written (R75); a write to
`CMD` otherwise starts a command (R230); the rest are read-only or reserved, and ignore it. -/
def Port.write (p : Port) (off : Nat) (v : Word) : Port :=
  if off = 0x04 then { p with done := doneAfterStatusWrite p.done v }
  else if off = 0x08 then { p with irqEn := v.getLsbD 0 }
  else if p.busy then p
  else if off = 0x00 then { p with cmd := v, busy := true, done := false, err := 0#4 }
  else if off = 0x0C then { p with cookieAddr := v }
  else if off = 0x10 then { p with cookieLen := v }
  else if off = 0x14 then { p with inAddr := v }
  else if off = 0x18 then { p with inLen := v }
  else if off = 0x1C then { p with outAddr := v }
  else if off = 0x20 then { p with outCap := v }
  else if off = 0x28 then { p with chmap := v }
  else if off = 0x34 then { p with dataIn := v }
  else p

/-- A register write: the port, and the command stage when it starts a command (R230). -/
def State.writeReg (s : State) (off : Nat) (v : Word) : State :=
  { s with port := s.port.write off v
           stage := if off = 0x00 ∧ s.port.busy = false then .command else s.stage }

/-- A host write of a register: the write of `CMD` that would start a command while two of the buffers overlap has no step
(R73, R316; log 8). -/
def State.hostWriteReg (s : State) (off : Nat) (v : Word) : Host.Outcome State Fault Refusal :=
  if off = 0x00 ∧ s.port.busy = false ∧ s.buffersOverlap = true then .fault .buffersOverlap
  else .next (s.writeReg off v)

/-- What a register reads as when its value is specified (R24): `CMD` and the reserved offsets read 0. -/
def State.regValue (s : State) (off : Nat) : Word :=
  if off = 0x04 then s.status
  else if off = 0x08 then (BitVec.ofBool s.port.irqEn).setWidth 32
  else if off = 0x0C then s.port.cookieAddr
  else if off = 0x10 then s.port.cookieLen
  else if off = 0x14 then s.port.inAddr
  else if off = 0x18 then s.port.inLen
  else if off = 0x1C then s.port.outAddr
  else if off = 0x20 then s.port.outCap
  else if off = 0x24 then s.port.outLen
  else if off = 0x28 then s.port.chmap
  else if off = 0x2C then s.cursor.byteIdx
  else if off = 0x30 then s.cursor.bitOff.setWidth 32
  else if off = 0x34 then s.port.dataIn
  else if off = 0x38 then s.port.dataOut
  else if off = 0x40 then s.cfg.maxSamples
  else if off = 0x44 then (s.cfg.kmod ++ s.cfg.initHist ++ s.cfg.histMult ++ s.cfg.bits : BitVec 32)
  else if off = 0x48 then s.cfg.numCh.setWidth 32
  else 0#32

/-- A result register, whose value is unspecified while a command runs (R71): `OUT_LEN`, `CUR_BYTE`, `CUR_BIT`,
`DATA_OUT`. -/
def isResultReg (off : Nat) : Bool := off == 0x24 || off == 0x2C || off == 0x30 || off == 0x38

/-- A host read that answers v. -/
def State.answer (s : State) (v : Word) : State := { s with busData := v }

/-- A host read whose value is unspecified: a free value (R71, "a draw"; log 4). -/
def State.answerFree (s : State) : State := { s with busData := Config.freeWord s.draws, draws := s.draws + 1 }

/-- The same for a byte of host memory. -/
def State.answerFreeByte (s : State) : State :=
  { s with busData := ((Config.freeWord s.draws).setWidth 8).setWidth 32, draws := s.draws + 1 }

/-- A register read (R24, R71); it changes no register (R68). -/
def State.readReg (s : State) (off : Nat) : State :=
  if s.port.busy && isResultReg off then s.answerFree else s.answer (s.regValue off)

/-- An address in the cookie, input or output buffer (R60). -/
def State.inAnyBuffer (s : State) (a : Word) : Bool :=
  inBuffer s.port.cookieAddr s.port.cookieLen a || inBuffer s.port.inAddr s.port.inLen a ||
    inBuffer s.port.outAddr s.port.outCap a

/-- The reset input (R310): every register of the core at its reset value; the running command is aborted; host memory, the
parameters and the host are as they were. The coefficient tables are unspecified from here on (R36, R312), so they are free
values (log 4), and no scratch entry is written. -/
def State.hwReset (s : State) : State :=
  { State.reset with
    ch0 := { ChanRegs.reset with coef := freeCoefs s.draws }
    ch1 := { ChanRegs.reset with coef := freeCoefs (s.draws + 32) }
    mem := s.mem, params := s.params, host := s.host, busData := s.busData, draws := s.draws + 64 }

/-- A host write of memory: no step into a buffer while a command runs (R73), or where the platform serves no byte (R70). -/
def State.hostWrite (s : State) (a : Word) (b : Byte) : Host.Outcome State Fault Refusal :=
  if s.port.busy && s.inAnyBuffer a then .fault .hostWroteBuffer
  else
    match s.mem.write a b with
    | some m => .next (s.setMem m)
    | none => .fault .busError

/-- A host read of a byte of memory, zero-extended. A byte of the output buffer is unspecified while a command runs (R71). -/
def State.hostRead (s : State) (a : Word) : Host.Outcome State Fault Refusal :=
  if s.port.busy && inBuffer s.port.outAddr s.port.outCap a then
    if s.mem.serves a.toNat then .next s.answerFreeByte else .fault .busError
  else
    match s.mem.read a with
    | some b => .next (s.answer (b.setWidth 32))
    | none => .fault .busError

/-- One host operation. `turns` and `wait` are not operations: the step gives the core its turns (log 2). -/
def hostStep (o : HostOp) (s : State) : Host.Outcome State Fault Refusal :=
  match o with
  | .writeReg addr width v =>
    match s.regOffset addr width with
    | some off => s.hostWriteReg off v
    | none => .fault .hostAccess
  | .readReg addr width =>
    match s.regOffset addr width with
    | some off => .next (s.readReg off)
    | none => .fault .hostAccess
  | .writeMem a b => s.hostWrite a b
  | .readMem a => s.hostRead a
  | .reset => .next s.hwReset
  | .turns _ => .next s
  | .wait => .next s

/-- Who moves next (R16, R320): the core when the host has left it its turn or has nothing to do, with the host's list after
that turn; or the host, with the operation and the rest of its list. -/
inductive Turn where
  | core (rest : List HostOp)
  | host (o : HostOp) (rest : List HostOp)
  deriving DecidableEq, Repr

/-- The turn of a state: `turns n` leaves the core n turns, `wait` as many as it needs to be not busy. -/
def State.turn (s : State) : Turn :=
  match s.host with
  | [] => .core []
  | .turns (n + 1) :: rest => .core (.turns n :: rest)
  | .wait :: rest => if s.port.busy then .core (.wait :: rest) else .host .wait rest
  | o :: rest => .host o rest

/-- The state with the host's list replaced. -/
def State.setHost (s : State) (l : List HostOp) : State := { s with host := l }

end Sys2Proof.Machine
end

