-- ==== Sys2Proof/Machine/Step.lean ====
section
/-! DEFINITION. One step of the machine: the host's move or the core's, as State says whose turn it is. A core step fetches one
instruction and runs it; a core that is not busy does nothing (R296). -/

namespace Sys2Proof.Machine

/-- What a fetch makes of the machine: the instruction runs in the state the fetch left, or the fetch ends the command with an
error (R284), or there is no step. -/
def runFetched : Res Instr → Host.Outcome State Fault Refusal
  | .ok i s => exec i s
  | .raised e s => .next (s.raiseError e)
  | .stuck f => .fault f

/-- One step of the core. -/
def coreStep (s : State) : Host.Outcome State Fault Refusal :=
  if s.stage = .idle then .next s else runFetched (fetch s)

/-- One step of the machine. -/
def step (s : State) : Host.Outcome State Fault Refusal :=
  match s.turn with
  | .core rest => coreStep (s.setHost rest)
  | .host o rest => hostStep o (s.setHost rest)

/-- The state with an instruction of the opcode table placed where the next step reads its instruction (log 12): a command
word in `CMD`, a part of the element stream in the input buffer. -/
def State.withFetchWord (s : State) (nbits w : Nat) : State :=
  match tableForm nbits w with
  | none => s
  | some (.command, _) => s.withCommand (BitVec.ofNat 32 w)
  | some (f, bits) => s.withStream f bits

end Sys2Proof.Machine
end

