-- ==== Sys2Proof/Safety.lean ====
section
/-! DEFINITION. The terms the claims are stated in: the input bits as numbered by spec/00_scope.md rule R11, the conditions under
which a read stays inside the input, and the invariant of the machine. A run is safe when every state of it satisfies
`State.Inv` and no step of it is a fault: a fault is the machine having no step (spec/20_memory.md rules R67, R70, R73). -/

namespace Sys2Proof.Machine

/-! ### The input as bits -/

/-- Every byte of the input buffer can be read (R61, R70). -/
abbrev State.InputReadable (s : State) : Prop :=
  ∀ j < s.port.inLen.toNat, (s.mem.read (s.port.inAddr + BitVec.ofNat 32 j)).isSome = true

/-- Bit position p of the input stream (R11): bit `7 - (p mod 8)` of byte `p / 8`; 0 beyond the buffer (R123). -/
def State.streamBit (s : State) (p : Nat) : Bool :=
  ((s.inByte (p / 8)).getD 0#8).getLsbD (7 - p % 8)

/-- The n bits from position p on, read as an unsigned big-endian number (R62). -/
def State.streamNat (s : State) (p : Nat) : Nat → Nat
  | 0 => 0
  | n + 1 => 2 * s.streamNat p n + (s.streamBit (p + n)).toNat

/-- The same as a 32-bit value. -/
def State.streamWord (s : State) (p n : Nat) : Word := BitVec.ofNat 32 (s.streamNat p n)

/-- The cursor at bit position p (R28). -/
def State.cursorAt (s : State) (p : Nat) : State :=
  s.setCursor ⟨BitVec.ofNat 32 (p / 8), BitVec.ofNat 3 (p % 8)⟩

/-- n bits can be read at the cursor: the input is readable, the n bits lie inside it, and the byte index stays below 2^31,
where the signed register of R28 ends (log 10). The end is that of an unsigned `IN_LEN` (log 17). -/
abbrev State.CanRead (s : State) (n : Nat) : Prop :=
  s.InputReadable ∧ s.pos + n ≤ s.endPos ∧ s.pos + n < 2 ^ 34

/-! ### The invariant -/

/-- The configuration registers hold a validated configuration, or are all clear (R22, R233). -/
abbrev StreamCfg.Legal (c : StreamCfg) : Prop :=
  if c.configured then
    1 ≤ c.maxSamples.toNat ∧ c.maxSamples.toNat ≤ 16364 ∧ c.bits ∈ [16#8, 20#8, 24#8, 32#8] ∧
      1 ≤ c.numCh.toNat ∧ c.numCh.toNat ≤ 8
  else c = .clear

/-- A coefficient table has 32 entries, each in the signed 16-bit range (R30). -/
abbrev CoefsLegal (l : List Word) : Prop := l.length = 32 ∧ ∀ c ∈ l, -32768 ≤ c.toInt ∧ c.toInt ≤ 32767

/-- A DECODE is past its start and not ended: the parser reads the element stream. -/
abbrev State.InFrame (s : State) : Prop := s.stage ≠ .idle ∧ s.stage ≠ .command

/-- A compressed audio element is being read: its predictor headers or its codewords. -/
abbrev State.InElement (s : State) : Prop :=
  s.stage = .predictor ∨ s.stage = .residual ∨ s.stage = .zeroRun

/-- The parser state each stage goes with (R237). -/
def ParserState.fits (p : ParserState) (g : Stage) : Bool :=
  match g with
  | .idle | .command => p == .halt
  | .element => p == .fetchTag
  | .predictor | .residual | .zeroRun => p == .sce || p == .cpe

/-- What holds while a frame is decoded. -/
structure State.FrameInv (s : State) : Prop where
  /-- The command that runs is a DECODE (R234). -/
  op : s.op = 1#4
  /-- Its preconditions hold still, since no register they read can change while it runs (R75, R235, R236). -/
  ready : s.decodeReady = true
  /-- The cursor is inside the input (R28). -/
  inside : s.pos ≤ s.endPos
  /-- `BYTE_IDX` is not negative (R28). -/
  positive : s.cursor.byteIdx.toNat < 2 ^ 31
  /-- No more channels than configured (R240, R256). -/
  channels : s.parser.ci ≤ s.cfg.numCh.toNat
  /-- The high-water mark is within the largest frame (R255). -/
  hwm : s.parser.hwm.toNat ≤ s.frameBytesMax.toNat

/-- What holds inside a compressed element (R239 to R244). -/
structure State.ElementInv (s : State) : Prop where
  /-- The sample count is within the configuration (R239). -/
  count : s.parser.n.toNat ≤ s.cfg.maxSamples.toNat
  /-- The element's channels are within the configuration (R240). -/
  channels : s.parser.ci + s.nch ≤ s.cfg.numCh.toNat
  /-- `CFG_KMOD` is below 32 (R244). -/
  kmod : s.cfg.kmod.toNat < 32
  /-- chanBits is 1..32 (R243). -/
  bitsLow : 1 ≤ s.chanBits
  /-- See `bitsLow`. -/
  bitsHigh : s.chanBits ≤ 32
  /-- Channel 1 is decoded only for a CPE (R241). -/
  second : s.chan = .c1 → s.nch = 2

/-- THE INVARIANT of the machine. -/
structure State.Inv (s : State) : Prop where
  /-- Host memory is in canonical form. -/
  mem : s.mem.wf
  /-- The configuration is validated or clear (R22). -/
  cfg : s.cfg.Legal
  /-- The coefficient tables are in range (R30). -/
  coef0 : CoefsLegal s.ch0.coef
  /-- See `coef0`. -/
  coef1 : CoefsLegal s.ch1.coef
  /-- `BUSY` is 1 exactly while a command runs (R26). -/
  busy : s.port.busy = true ↔ s.stage ≠ .idle
  /-- A running command is not done (R26, R230). -/
  notDone : s.port.busy = true → s.port.done = false
  /-- While a command runs, no two of its buffers meet: none starts where they do, and no register changes then (R73, R75). -/
  apart : s.port.busy = true → s.buffersOverlap = false
  /-- `ERR` holds a code of R280. -/
  err : s.port.err.toNat ≤ 5
  /-- `SIGN_MOD` is 0 or 1 (R29). -/
  signMod : s.rice.signMod.toNat ≤ 1
  /-- The parser state fits what is read next (R237). -/
  parser : s.parser.state.fits s.stage = true
  /-- Inside a frame. -/
  frame : s.InFrame → s.FrameInv
  /-- Inside a compressed element. -/
  element : s.InElement → s.ElementInv
  /-- Inside a channel run a value is still to be stored (R160, R161). -/
  run : s.stage = .residual ∨ s.stage = .zeroRun → (s.ch s.chan).res.length < s.parser.n.toNat

end Sys2Proof.Machine
end

