-- ==== Sys2Proof/Laws/State.lean ====
section
/-! SUPPORT. One lemma per field per update of State, true by rfl: what each accessor writes and what it leaves. Later proofs
cite these and do not unfold a record update. -/

namespace Sys2Proof.Machine

/-! ### setCursor -/

@[simp] theorem State.setCursor_cfg (s : State) (c : Cursor) : (s.setCursor c).cfg = s.cfg := rfl

@[simp] theorem State.setCursor_port (s : State) (c : Cursor) : (s.setCursor c).port = s.port := rfl

@[simp] theorem State.setCursor_cursor (s : State) (c : Cursor) : (s.setCursor c).cursor = c := rfl

@[simp] theorem State.setCursor_rice (s : State) (c : Cursor) : (s.setCursor c).rice = s.rice := rfl

@[simp] theorem State.setCursor_parser (s : State) (c : Cursor) : (s.setCursor c).parser = s.parser := rfl

@[simp] theorem State.setCursor_ch0 (s : State) (c : Cursor) : (s.setCursor c).ch0 = s.ch0 := rfl

@[simp] theorem State.setCursor_ch1 (s : State) (c : Cursor) : (s.setCursor c).ch1 = s.ch1 := rfl

@[simp] theorem State.setCursor_mem (s : State) (c : Cursor) : (s.setCursor c).mem = s.mem := rfl

@[simp] theorem State.setCursor_params (s : State) (c : Cursor) : (s.setCursor c).params = s.params := rfl

@[simp] theorem State.setCursor_stage (s : State) (c : Cursor) : (s.setCursor c).stage = s.stage := rfl

@[simp] theorem State.setCursor_chan (s : State) (c : Cursor) : (s.setCursor c).chan = s.chan := rfl

@[simp] theorem State.setCursor_host (s : State) (c : Cursor) : (s.setCursor c).host = s.host := rfl

@[simp] theorem State.setCursor_busData (s : State) (c : Cursor) : (s.setCursor c).busData = s.busData := rfl

@[simp] theorem State.setCursor_draws (s : State) (c : Cursor) : (s.setCursor c).draws = s.draws := rfl

/-! ### setDataOut -/

@[simp] theorem State.setDataOut_cfg (s : State) (v : Word) : (s.setDataOut v).cfg = s.cfg := rfl

@[simp] theorem State.setDataOut_port (s : State) (v : Word) : (s.setDataOut v).port = { s.port with dataOut := v } := rfl

@[simp] theorem State.setDataOut_cursor (s : State) (v : Word) : (s.setDataOut v).cursor = s.cursor := rfl

@[simp] theorem State.setDataOut_rice (s : State) (v : Word) : (s.setDataOut v).rice = s.rice := rfl

@[simp] theorem State.setDataOut_parser (s : State) (v : Word) : (s.setDataOut v).parser = s.parser := rfl

@[simp] theorem State.setDataOut_ch0 (s : State) (v : Word) : (s.setDataOut v).ch0 = s.ch0 := rfl

@[simp] theorem State.setDataOut_ch1 (s : State) (v : Word) : (s.setDataOut v).ch1 = s.ch1 := rfl

@[simp] theorem State.setDataOut_mem (s : State) (v : Word) : (s.setDataOut v).mem = s.mem := rfl

@[simp] theorem State.setDataOut_params (s : State) (v : Word) : (s.setDataOut v).params = s.params := rfl

@[simp] theorem State.setDataOut_stage (s : State) (v : Word) : (s.setDataOut v).stage = s.stage := rfl

@[simp] theorem State.setDataOut_chan (s : State) (v : Word) : (s.setDataOut v).chan = s.chan := rfl

@[simp] theorem State.setDataOut_host (s : State) (v : Word) : (s.setDataOut v).host = s.host := rfl

@[simp] theorem State.setDataOut_busData (s : State) (v : Word) : (s.setDataOut v).busData = s.busData := rfl

@[simp] theorem State.setDataOut_draws (s : State) (v : Word) : (s.setDataOut v).draws = s.draws := rfl

/-! ### setCfg -/

@[simp] theorem State.setCfg_cfg (s : State) (c : StreamCfg) : (s.setCfg c).cfg = c := rfl

@[simp] theorem State.setCfg_port (s : State) (c : StreamCfg) : (s.setCfg c).port = s.port := rfl

@[simp] theorem State.setCfg_cursor (s : State) (c : StreamCfg) : (s.setCfg c).cursor = s.cursor := rfl

@[simp] theorem State.setCfg_rice (s : State) (c : StreamCfg) : (s.setCfg c).rice = s.rice := rfl

@[simp] theorem State.setCfg_parser (s : State) (c : StreamCfg) : (s.setCfg c).parser = s.parser := rfl

@[simp] theorem State.setCfg_ch0 (s : State) (c : StreamCfg) : (s.setCfg c).ch0 = s.ch0 := rfl

@[simp] theorem State.setCfg_ch1 (s : State) (c : StreamCfg) : (s.setCfg c).ch1 = s.ch1 := rfl

@[simp] theorem State.setCfg_mem (s : State) (c : StreamCfg) : (s.setCfg c).mem = s.mem := rfl

@[simp] theorem State.setCfg_params (s : State) (c : StreamCfg) : (s.setCfg c).params = s.params := rfl

@[simp] theorem State.setCfg_stage (s : State) (c : StreamCfg) : (s.setCfg c).stage = s.stage := rfl

@[simp] theorem State.setCfg_chan (s : State) (c : StreamCfg) : (s.setCfg c).chan = s.chan := rfl

@[simp] theorem State.setCfg_host (s : State) (c : StreamCfg) : (s.setCfg c).host = s.host := rfl

@[simp] theorem State.setCfg_busData (s : State) (c : StreamCfg) : (s.setCfg c).busData = s.busData := rfl

@[simp] theorem State.setCfg_draws (s : State) (c : StreamCfg) : (s.setCfg c).draws = s.draws := rfl

/-! ### setRice -/

@[simp] theorem State.setRice_cfg (s : State) (r : Rice) : (s.setRice r).cfg = s.cfg := rfl

@[simp] theorem State.setRice_port (s : State) (r : Rice) : (s.setRice r).port = s.port := rfl

@[simp] theorem State.setRice_cursor (s : State) (r : Rice) : (s.setRice r).cursor = s.cursor := rfl

@[simp] theorem State.setRice_rice (s : State) (r : Rice) : (s.setRice r).rice = r := rfl

@[simp] theorem State.setRice_parser (s : State) (r : Rice) : (s.setRice r).parser = s.parser := rfl

@[simp] theorem State.setRice_ch0 (s : State) (r : Rice) : (s.setRice r).ch0 = s.ch0 := rfl

@[simp] theorem State.setRice_ch1 (s : State) (r : Rice) : (s.setRice r).ch1 = s.ch1 := rfl

@[simp] theorem State.setRice_mem (s : State) (r : Rice) : (s.setRice r).mem = s.mem := rfl

@[simp] theorem State.setRice_params (s : State) (r : Rice) : (s.setRice r).params = s.params := rfl

@[simp] theorem State.setRice_stage (s : State) (r : Rice) : (s.setRice r).stage = s.stage := rfl

@[simp] theorem State.setRice_chan (s : State) (r : Rice) : (s.setRice r).chan = s.chan := rfl

@[simp] theorem State.setRice_host (s : State) (r : Rice) : (s.setRice r).host = s.host := rfl

@[simp] theorem State.setRice_busData (s : State) (r : Rice) : (s.setRice r).busData = s.busData := rfl

@[simp] theorem State.setRice_draws (s : State) (r : Rice) : (s.setRice r).draws = s.draws := rfl

/-! ### setParser -/

@[simp] theorem State.setParser_cfg (s : State) (p : Parser) : (s.setParser p).cfg = s.cfg := rfl

@[simp] theorem State.setParser_port (s : State) (p : Parser) : (s.setParser p).port = s.port := rfl

@[simp] theorem State.setParser_cursor (s : State) (p : Parser) : (s.setParser p).cursor = s.cursor := rfl

@[simp] theorem State.setParser_rice (s : State) (p : Parser) : (s.setParser p).rice = s.rice := rfl

@[simp] theorem State.setParser_parser (s : State) (p : Parser) : (s.setParser p).parser = p := rfl

@[simp] theorem State.setParser_ch0 (s : State) (p : Parser) : (s.setParser p).ch0 = s.ch0 := rfl

@[simp] theorem State.setParser_ch1 (s : State) (p : Parser) : (s.setParser p).ch1 = s.ch1 := rfl

@[simp] theorem State.setParser_mem (s : State) (p : Parser) : (s.setParser p).mem = s.mem := rfl

@[simp] theorem State.setParser_params (s : State) (p : Parser) : (s.setParser p).params = s.params := rfl

@[simp] theorem State.setParser_stage (s : State) (p : Parser) : (s.setParser p).stage = s.stage := rfl

@[simp] theorem State.setParser_chan (s : State) (p : Parser) : (s.setParser p).chan = s.chan := rfl

@[simp] theorem State.setParser_host (s : State) (p : Parser) : (s.setParser p).host = s.host := rfl

@[simp] theorem State.setParser_busData (s : State) (p : Parser) : (s.setParser p).busData = s.busData := rfl

@[simp] theorem State.setParser_draws (s : State) (p : Parser) : (s.setParser p).draws = s.draws := rfl

/-! ### setMem -/

@[simp] theorem State.setMem_cfg (s : State) (m : Memory) : (s.setMem m).cfg = s.cfg := rfl

@[simp] theorem State.setMem_port (s : State) (m : Memory) : (s.setMem m).port = s.port := rfl

@[simp] theorem State.setMem_cursor (s : State) (m : Memory) : (s.setMem m).cursor = s.cursor := rfl

@[simp] theorem State.setMem_rice (s : State) (m : Memory) : (s.setMem m).rice = s.rice := rfl

@[simp] theorem State.setMem_parser (s : State) (m : Memory) : (s.setMem m).parser = s.parser := rfl

@[simp] theorem State.setMem_ch0 (s : State) (m : Memory) : (s.setMem m).ch0 = s.ch0 := rfl

@[simp] theorem State.setMem_ch1 (s : State) (m : Memory) : (s.setMem m).ch1 = s.ch1 := rfl

@[simp] theorem State.setMem_mem (s : State) (m : Memory) : (s.setMem m).mem = m := rfl

@[simp] theorem State.setMem_params (s : State) (m : Memory) : (s.setMem m).params = s.params := rfl

@[simp] theorem State.setMem_stage (s : State) (m : Memory) : (s.setMem m).stage = s.stage := rfl

@[simp] theorem State.setMem_chan (s : State) (m : Memory) : (s.setMem m).chan = s.chan := rfl

@[simp] theorem State.setMem_host (s : State) (m : Memory) : (s.setMem m).host = s.host := rfl

@[simp] theorem State.setMem_busData (s : State) (m : Memory) : (s.setMem m).busData = s.busData := rfl

@[simp] theorem State.setMem_draws (s : State) (m : Memory) : (s.setMem m).draws = s.draws := rfl

/-! ### goto -/

@[simp] theorem State.goto_cfg (s : State) (g : Stage) (c : Ch) : (s.goto g c).cfg = s.cfg := rfl

@[simp] theorem State.goto_port (s : State) (g : Stage) (c : Ch) : (s.goto g c).port = s.port := rfl

@[simp] theorem State.goto_cursor (s : State) (g : Stage) (c : Ch) : (s.goto g c).cursor = s.cursor := rfl

@[simp] theorem State.goto_rice (s : State) (g : Stage) (c : Ch) : (s.goto g c).rice = s.rice := rfl

@[simp] theorem State.goto_parser (s : State) (g : Stage) (c : Ch) : (s.goto g c).parser = s.parser := rfl

@[simp] theorem State.goto_ch0 (s : State) (g : Stage) (c : Ch) : (s.goto g c).ch0 = s.ch0 := rfl

@[simp] theorem State.goto_ch1 (s : State) (g : Stage) (c : Ch) : (s.goto g c).ch1 = s.ch1 := rfl

@[simp] theorem State.goto_mem (s : State) (g : Stage) (c : Ch) : (s.goto g c).mem = s.mem := rfl

@[simp] theorem State.goto_params (s : State) (g : Stage) (c : Ch) : (s.goto g c).params = s.params := rfl

@[simp] theorem State.goto_stage (s : State) (g : Stage) (c : Ch) : (s.goto g c).stage = g := rfl

@[simp] theorem State.goto_chan (s : State) (g : Stage) (c : Ch) : (s.goto g c).chan = c := rfl

@[simp] theorem State.goto_host (s : State) (g : Stage) (c : Ch) : (s.goto g c).host = s.host := rfl

@[simp] theorem State.goto_busData (s : State) (g : Stage) (c : Ch) : (s.goto g c).busData = s.busData := rfl

@[simp] theorem State.goto_draws (s : State) (g : Stage) (c : Ch) : (s.goto g c).draws = s.draws := rfl

/-! ### setHost -/

@[simp] theorem State.setHost_cfg (s : State) (l : List HostOp) : (s.setHost l).cfg = s.cfg := rfl

@[simp] theorem State.setHost_port (s : State) (l : List HostOp) : (s.setHost l).port = s.port := rfl

@[simp] theorem State.setHost_cursor (s : State) (l : List HostOp) : (s.setHost l).cursor = s.cursor := rfl

@[simp] theorem State.setHost_rice (s : State) (l : List HostOp) : (s.setHost l).rice = s.rice := rfl

@[simp] theorem State.setHost_parser (s : State) (l : List HostOp) : (s.setHost l).parser = s.parser := rfl

@[simp] theorem State.setHost_ch0 (s : State) (l : List HostOp) : (s.setHost l).ch0 = s.ch0 := rfl

@[simp] theorem State.setHost_ch1 (s : State) (l : List HostOp) : (s.setHost l).ch1 = s.ch1 := rfl

@[simp] theorem State.setHost_mem (s : State) (l : List HostOp) : (s.setHost l).mem = s.mem := rfl

@[simp] theorem State.setHost_params (s : State) (l : List HostOp) : (s.setHost l).params = s.params := rfl

@[simp] theorem State.setHost_stage (s : State) (l : List HostOp) : (s.setHost l).stage = s.stage := rfl

@[simp] theorem State.setHost_chan (s : State) (l : List HostOp) : (s.setHost l).chan = s.chan := rfl

@[simp] theorem State.setHost_host (s : State) (l : List HostOp) : (s.setHost l).host = l := rfl

@[simp] theorem State.setHost_busData (s : State) (l : List HostOp) : (s.setHost l).busData = s.busData := rfl

@[simp] theorem State.setHost_draws (s : State) (l : List HostOp) : (s.setHost l).draws = s.draws := rfl

/-! ### endCommand -/

@[simp] theorem State.endCommand_cfg (s : State) : (s.endCommand).cfg = s.cfg := rfl

@[simp] theorem State.endCommand_port (s : State) : (s.endCommand).port = { s.port with busy := false, done := true, err := 0#4 } := rfl

@[simp] theorem State.endCommand_cursor (s : State) : (s.endCommand).cursor = s.cursor := rfl

@[simp] theorem State.endCommand_rice (s : State) : (s.endCommand).rice = s.rice := rfl

@[simp] theorem State.endCommand_parser (s : State) : (s.endCommand).parser = s.parser := rfl

@[simp] theorem State.endCommand_ch0 (s : State) : (s.endCommand).ch0 = s.ch0 := rfl

@[simp] theorem State.endCommand_ch1 (s : State) : (s.endCommand).ch1 = s.ch1 := rfl

@[simp] theorem State.endCommand_mem (s : State) : (s.endCommand).mem = s.mem := rfl

@[simp] theorem State.endCommand_params (s : State) : (s.endCommand).params = s.params := rfl

@[simp] theorem State.endCommand_stage (s : State) : (s.endCommand).stage = .idle := rfl

@[simp] theorem State.endCommand_chan (s : State) : (s.endCommand).chan = s.chan := rfl

@[simp] theorem State.endCommand_host (s : State) : (s.endCommand).host = s.host := rfl

@[simp] theorem State.endCommand_busData (s : State) : (s.endCommand).busData = s.busData := rfl

@[simp] theorem State.endCommand_draws (s : State) : (s.endCommand).draws = s.draws := rfl

/-! ### raiseError -/

@[simp] theorem State.raiseError_cfg (s : State) (e : ErrKind) : (s.raiseError e).cfg = s.cfg := rfl

@[simp] theorem State.raiseError_port (s : State) (e : ErrKind) : (s.raiseError e).port = { s.port with busy := false, done := true, err := e.code, outLen := if s.op = 1#4 then 0#32 else s.port.outLen } := rfl

@[simp] theorem State.raiseError_cursor (s : State) (e : ErrKind) : (s.raiseError e).cursor = s.cursor := rfl

@[simp] theorem State.raiseError_ch0 (s : State) (e : ErrKind) : (s.raiseError e).ch0 = .unspecified (s.draws + 16) := rfl

@[simp] theorem State.raiseError_ch1 (s : State) (e : ErrKind) : (s.raiseError e).ch1 = .unspecified (s.draws + 56) := rfl

@[simp] theorem State.raiseError_mem (s : State) (e : ErrKind) : (s.raiseError e).mem = s.mem := rfl

@[simp] theorem State.raiseError_params (s : State) (e : ErrKind) : (s.raiseError e).params = s.params := rfl

@[simp] theorem State.raiseError_stage (s : State) (e : ErrKind) : (s.raiseError e).stage = .idle := rfl

@[simp] theorem State.raiseError_chan (s : State) (e : ErrKind) : (s.raiseError e).chan = s.chan := rfl

@[simp] theorem State.raiseError_host (s : State) (e : ErrKind) : (s.raiseError e).host = s.host := rfl

@[simp] theorem State.raiseError_busData (s : State) (e : ErrKind) : (s.raiseError e).busData = s.busData := rfl

@[simp] theorem State.raiseError_draws (s : State) (e : ErrKind) : (s.raiseError e).draws = s.draws + errorDraws := rfl

/-! ### answer -/

@[simp] theorem State.answer_cfg (s : State) (v : Word) : (s.answer v).cfg = s.cfg := rfl

@[simp] theorem State.answer_port (s : State) (v : Word) : (s.answer v).port = s.port := rfl

@[simp] theorem State.answer_cursor (s : State) (v : Word) : (s.answer v).cursor = s.cursor := rfl

@[simp] theorem State.answer_rice (s : State) (v : Word) : (s.answer v).rice = s.rice := rfl

@[simp] theorem State.answer_parser (s : State) (v : Word) : (s.answer v).parser = s.parser := rfl

@[simp] theorem State.answer_ch0 (s : State) (v : Word) : (s.answer v).ch0 = s.ch0 := rfl

@[simp] theorem State.answer_ch1 (s : State) (v : Word) : (s.answer v).ch1 = s.ch1 := rfl

@[simp] theorem State.answer_mem (s : State) (v : Word) : (s.answer v).mem = s.mem := rfl

@[simp] theorem State.answer_params (s : State) (v : Word) : (s.answer v).params = s.params := rfl

@[simp] theorem State.answer_stage (s : State) (v : Word) : (s.answer v).stage = s.stage := rfl

@[simp] theorem State.answer_chan (s : State) (v : Word) : (s.answer v).chan = s.chan := rfl

@[simp] theorem State.answer_host (s : State) (v : Word) : (s.answer v).host = s.host := rfl

@[simp] theorem State.answer_busData (s : State) (v : Word) : (s.answer v).busData = v := rfl

@[simp] theorem State.answer_draws (s : State) (v : Word) : (s.answer v).draws = s.draws := rfl

@[simp] theorem State.raiseError_state (s : State) (e : ErrKind) : (s.raiseError e).parser.state = .halt := rfl

/-! ### setCh -/

@[simp] theorem State.setCh_cfg (s : State) (c : Ch) (r : ChanRegs) : (s.setCh c r).cfg = s.cfg := by
  cases c <;> rfl

@[simp] theorem State.setCh_port (s : State) (c : Ch) (r : ChanRegs) : (s.setCh c r).port = s.port := by
  cases c <;> rfl

@[simp] theorem State.setCh_cursor (s : State) (c : Ch) (r : ChanRegs) : (s.setCh c r).cursor = s.cursor := by
  cases c <;> rfl

@[simp] theorem State.setCh_rice (s : State) (c : Ch) (r : ChanRegs) : (s.setCh c r).rice = s.rice := by
  cases c <;> rfl

@[simp] theorem State.setCh_parser (s : State) (c : Ch) (r : ChanRegs) : (s.setCh c r).parser = s.parser := by
  cases c <;> rfl

@[simp] theorem State.setCh_mem (s : State) (c : Ch) (r : ChanRegs) : (s.setCh c r).mem = s.mem := by
  cases c <;> rfl

@[simp] theorem State.setCh_params (s : State) (c : Ch) (r : ChanRegs) : (s.setCh c r).params = s.params := by
  cases c <;> rfl

@[simp] theorem State.setCh_stage (s : State) (c : Ch) (r : ChanRegs) : (s.setCh c r).stage = s.stage := by
  cases c <;> rfl

@[simp] theorem State.setCh_chan (s : State) (c : Ch) (r : ChanRegs) : (s.setCh c r).chan = s.chan := by
  cases c <;> rfl

@[simp] theorem State.setCh_host (s : State) (c : Ch) (r : ChanRegs) : (s.setCh c r).host = s.host := by
  cases c <;> rfl

@[simp] theorem State.setCh_busData (s : State) (c : Ch) (r : ChanRegs) : (s.setCh c r).busData = s.busData := by
  cases c <;> rfl

@[simp] theorem State.setCh_draws (s : State) (c : Ch) (r : ChanRegs) : (s.setCh c r).draws = s.draws := by
  cases c <;> rfl

@[simp] theorem State.setCh_c0 (s : State) (r : ChanRegs) : s.setCh .c0 r = { s with ch0 := r } := rfl

@[simp] theorem State.setCh_c1 (s : State) (r : ChanRegs) : s.setCh .c1 r = { s with ch1 := r } := rfl

@[simp] theorem State.ch_c0 (s : State) : s.ch .c0 = s.ch0 := rfl

@[simp] theorem State.ch_c1 (s : State) : s.ch .c1 = s.ch1 := rfl

@[simp] theorem State.ch_setCh_same (s : State) (c : Ch) (r : ChanRegs) : (s.setCh c r).ch c = r := by
  cases c <;> rfl

theorem State.ch_setCh_other (s : State) (c d : Ch) (r : ChanRegs) (h : d ≠ c) : (s.setCh c r).ch d = s.ch d := by
  cases c <;> cases d <;> first | rfl | exact absurd rfl h

/-! ### What is computed from the fields -/

@[simp] theorem State.setCursor_op (s : State) (c : Cursor) : (s.setCursor c).op = s.op := rfl

@[simp] theorem State.setCursor_nch (s : State) (c : Cursor) : (s.setCursor c).nch = s.nch := rfl

@[simp] theorem State.setCursor_bps (s : State) (c : Cursor) : (s.setCursor c).bps = s.bps := rfl

@[simp] theorem State.setCursor_frameStride (s : State) (c : Cursor) : (s.setCursor c).frameStride = s.frameStride := rfl

@[simp] theorem State.setCursor_frameBytesMax (s : State) (c : Cursor) : (s.setCursor c).frameBytesMax = s.frameBytesMax := rfl

@[simp] theorem State.setCursor_endPos (s : State) (c : Cursor) : (s.setCursor c).endPos = s.endPos := rfl

@[simp] theorem State.setCursor_status (s : State) (c : Cursor) : (s.setCursor c).status = s.status := rfl

@[simp] theorem State.setCursor_irq (s : State) (c : Cursor) : (s.setCursor c).irq = s.irq := rfl

@[simp] theorem State.setCursor_decodeReady (s : State) (c : Cursor) : (s.setCursor c).decodeReady = s.decodeReady := rfl

@[simp] theorem State.setCursor_buffersOverlap (s : State) (c : Cursor) : (s.setCursor c).buffersOverlap = s.buffersOverlap := rfl

@[simp] theorem State.setCursor_chanBits (s : State) (c : Cursor) : (s.setCursor c).chanBits = s.chanBits := rfl

@[simp] theorem State.setCursor_zeroRunMask (s : State) (c : Cursor) : (s.setCursor c).zeroRunMask = s.zeroRunMask := rfl

@[simp] theorem State.setCursor_nextK (s : State) (c : Cursor) : (s.setCursor c).nextK = s.nextK := rfl

@[simp] theorem State.setCfg_op (s : State) (c : StreamCfg) : (s.setCfg c).op = s.op := rfl

@[simp] theorem State.setCfg_nch (s : State) (c : StreamCfg) : (s.setCfg c).nch = s.nch := rfl

@[simp] theorem State.setCfg_endPos (s : State) (c : StreamCfg) : (s.setCfg c).endPos = s.endPos := rfl

@[simp] theorem State.setCfg_pos (s : State) (c : StreamCfg) : (s.setCfg c).pos = s.pos := rfl

@[simp] theorem State.setCfg_irq (s : State) (c : StreamCfg) : (s.setCfg c).irq = s.irq := rfl

@[simp] theorem State.setCfg_buffersOverlap (s : State) (c : StreamCfg) : (s.setCfg c).buffersOverlap = s.buffersOverlap := rfl

@[simp] theorem State.setRice_op (s : State) (r : Rice) : (s.setRice r).op = s.op := rfl

@[simp] theorem State.setRice_nch (s : State) (r : Rice) : (s.setRice r).nch = s.nch := rfl

@[simp] theorem State.setRice_bps (s : State) (r : Rice) : (s.setRice r).bps = s.bps := rfl

@[simp] theorem State.setRice_frameStride (s : State) (r : Rice) : (s.setRice r).frameStride = s.frameStride := rfl

@[simp] theorem State.setRice_frameBytesMax (s : State) (r : Rice) : (s.setRice r).frameBytesMax = s.frameBytesMax := rfl

@[simp] theorem State.setRice_endPos (s : State) (r : Rice) : (s.setRice r).endPos = s.endPos := rfl

@[simp] theorem State.setRice_pos (s : State) (r : Rice) : (s.setRice r).pos = s.pos := rfl

@[simp] theorem State.setRice_status (s : State) (r : Rice) : (s.setRice r).status = s.status := rfl

@[simp] theorem State.setRice_irq (s : State) (r : Rice) : (s.setRice r).irq = s.irq := rfl

@[simp] theorem State.setRice_decodeReady (s : State) (r : Rice) : (s.setRice r).decodeReady = s.decodeReady := rfl

@[simp] theorem State.setRice_buffersOverlap (s : State) (r : Rice) : (s.setRice r).buffersOverlap = s.buffersOverlap := rfl

@[simp] theorem State.setRice_chanBits (s : State) (r : Rice) : (s.setRice r).chanBits = s.chanBits := rfl

@[simp] theorem State.setRice_zeroRunMask (s : State) (r : Rice) : (s.setRice r).zeroRunMask = s.zeroRunMask := rfl

@[simp] theorem State.setParser_op (s : State) (p : Parser) : (s.setParser p).op = s.op := rfl

@[simp] theorem State.setParser_bps (s : State) (p : Parser) : (s.setParser p).bps = s.bps := rfl

@[simp] theorem State.setParser_frameStride (s : State) (p : Parser) : (s.setParser p).frameStride = s.frameStride := rfl

@[simp] theorem State.setParser_frameBytesMax (s : State) (p : Parser) : (s.setParser p).frameBytesMax = s.frameBytesMax := rfl

@[simp] theorem State.setParser_endPos (s : State) (p : Parser) : (s.setParser p).endPos = s.endPos := rfl

@[simp] theorem State.setParser_pos (s : State) (p : Parser) : (s.setParser p).pos = s.pos := rfl

@[simp] theorem State.setParser_status (s : State) (p : Parser) : (s.setParser p).status = s.status := rfl

@[simp] theorem State.setParser_irq (s : State) (p : Parser) : (s.setParser p).irq = s.irq := rfl

@[simp] theorem State.setParser_decodeReady (s : State) (p : Parser) : (s.setParser p).decodeReady = s.decodeReady := rfl

@[simp] theorem State.setParser_buffersOverlap (s : State) (p : Parser) : (s.setParser p).buffersOverlap = s.buffersOverlap := rfl

@[simp] theorem State.setParser_zeroRunMask (s : State) (p : Parser) : (s.setParser p).zeroRunMask = s.zeroRunMask := rfl

@[simp] theorem State.setParser_nextK (s : State) (p : Parser) : (s.setParser p).nextK = s.nextK := rfl

@[simp] theorem State.setMem_op (s : State) (m : Memory) : (s.setMem m).op = s.op := rfl

@[simp] theorem State.setMem_nch (s : State) (m : Memory) : (s.setMem m).nch = s.nch := rfl

@[simp] theorem State.setMem_bps (s : State) (m : Memory) : (s.setMem m).bps = s.bps := rfl

@[simp] theorem State.setMem_frameStride (s : State) (m : Memory) : (s.setMem m).frameStride = s.frameStride := rfl

@[simp] theorem State.setMem_frameBytesMax (s : State) (m : Memory) : (s.setMem m).frameBytesMax = s.frameBytesMax := rfl

@[simp] theorem State.setMem_endPos (s : State) (m : Memory) : (s.setMem m).endPos = s.endPos := rfl

@[simp] theorem State.setMem_pos (s : State) (m : Memory) : (s.setMem m).pos = s.pos := rfl

@[simp] theorem State.setMem_status (s : State) (m : Memory) : (s.setMem m).status = s.status := rfl

@[simp] theorem State.setMem_irq (s : State) (m : Memory) : (s.setMem m).irq = s.irq := rfl

@[simp] theorem State.setMem_decodeReady (s : State) (m : Memory) : (s.setMem m).decodeReady = s.decodeReady := rfl

@[simp] theorem State.setMem_buffersOverlap (s : State) (m : Memory) : (s.setMem m).buffersOverlap = s.buffersOverlap := rfl

@[simp] theorem State.setMem_chanBits (s : State) (m : Memory) : (s.setMem m).chanBits = s.chanBits := rfl

@[simp] theorem State.setMem_zeroRunMask (s : State) (m : Memory) : (s.setMem m).zeroRunMask = s.zeroRunMask := rfl

@[simp] theorem State.setMem_nextK (s : State) (m : Memory) : (s.setMem m).nextK = s.nextK := rfl

@[simp] theorem State.goto_op (s : State) (g : Stage) (c : Ch) : (s.goto g c).op = s.op := rfl

@[simp] theorem State.goto_nch (s : State) (g : Stage) (c : Ch) : (s.goto g c).nch = s.nch := rfl

@[simp] theorem State.goto_bps (s : State) (g : Stage) (c : Ch) : (s.goto g c).bps = s.bps := rfl

@[simp] theorem State.goto_frameStride (s : State) (g : Stage) (c : Ch) : (s.goto g c).frameStride = s.frameStride := rfl

@[simp] theorem State.goto_frameBytesMax (s : State) (g : Stage) (c : Ch) : (s.goto g c).frameBytesMax = s.frameBytesMax := rfl

@[simp] theorem State.goto_endPos (s : State) (g : Stage) (c : Ch) : (s.goto g c).endPos = s.endPos := rfl

@[simp] theorem State.goto_pos (s : State) (g : Stage) (c : Ch) : (s.goto g c).pos = s.pos := rfl

@[simp] theorem State.goto_status (s : State) (g : Stage) (c : Ch) : (s.goto g c).status = s.status := rfl

@[simp] theorem State.goto_irq (s : State) (g : Stage) (c : Ch) : (s.goto g c).irq = s.irq := rfl

@[simp] theorem State.goto_decodeReady (s : State) (g : Stage) (c : Ch) : (s.goto g c).decodeReady = s.decodeReady := rfl

@[simp] theorem State.goto_buffersOverlap (s : State) (g : Stage) (c : Ch) : (s.goto g c).buffersOverlap = s.buffersOverlap := rfl

@[simp] theorem State.goto_chanBits (s : State) (g : Stage) (c : Ch) : (s.goto g c).chanBits = s.chanBits := rfl

@[simp] theorem State.goto_zeroRunMask (s : State) (g : Stage) (c : Ch) : (s.goto g c).zeroRunMask = s.zeroRunMask := rfl

@[simp] theorem State.goto_nextK (s : State) (g : Stage) (c : Ch) : (s.goto g c).nextK = s.nextK := rfl

@[simp] theorem State.setHost_op (s : State) (l : List HostOp) : (s.setHost l).op = s.op := rfl

@[simp] theorem State.setHost_nch (s : State) (l : List HostOp) : (s.setHost l).nch = s.nch := rfl

@[simp] theorem State.setHost_bps (s : State) (l : List HostOp) : (s.setHost l).bps = s.bps := rfl

@[simp] theorem State.setHost_frameStride (s : State) (l : List HostOp) : (s.setHost l).frameStride = s.frameStride := rfl

@[simp] theorem State.setHost_frameBytesMax (s : State) (l : List HostOp) : (s.setHost l).frameBytesMax = s.frameBytesMax := rfl

@[simp] theorem State.setHost_endPos (s : State) (l : List HostOp) : (s.setHost l).endPos = s.endPos := rfl

@[simp] theorem State.setHost_pos (s : State) (l : List HostOp) : (s.setHost l).pos = s.pos := rfl

@[simp] theorem State.setHost_status (s : State) (l : List HostOp) : (s.setHost l).status = s.status := rfl

@[simp] theorem State.setHost_irq (s : State) (l : List HostOp) : (s.setHost l).irq = s.irq := rfl

@[simp] theorem State.setHost_decodeReady (s : State) (l : List HostOp) : (s.setHost l).decodeReady = s.decodeReady := rfl

@[simp] theorem State.setHost_buffersOverlap (s : State) (l : List HostOp) : (s.setHost l).buffersOverlap = s.buffersOverlap := rfl

@[simp] theorem State.setHost_chanBits (s : State) (l : List HostOp) : (s.setHost l).chanBits = s.chanBits := rfl

@[simp] theorem State.setHost_zeroRunMask (s : State) (l : List HostOp) : (s.setHost l).zeroRunMask = s.zeroRunMask := rfl

@[simp] theorem State.setHost_nextK (s : State) (l : List HostOp) : (s.setHost l).nextK = s.nextK := rfl

@[simp] theorem State.setCh_op (s : State) (c : Ch) (r : ChanRegs) : (s.setCh c r).op = s.op := by
  cases c <;> rfl

@[simp] theorem State.setCh_nch (s : State) (c : Ch) (r : ChanRegs) : (s.setCh c r).nch = s.nch := by
  cases c <;> rfl

@[simp] theorem State.setCh_bps (s : State) (c : Ch) (r : ChanRegs) : (s.setCh c r).bps = s.bps := by
  cases c <;> rfl

@[simp] theorem State.setCh_frameStride (s : State) (c : Ch) (r : ChanRegs) : (s.setCh c r).frameStride = s.frameStride := by
  cases c <;> rfl

@[simp] theorem State.setCh_frameBytesMax (s : State) (c : Ch) (r : ChanRegs) : (s.setCh c r).frameBytesMax = s.frameBytesMax := by
  cases c <;> rfl

@[simp] theorem State.setCh_endPos (s : State) (c : Ch) (r : ChanRegs) : (s.setCh c r).endPos = s.endPos := by
  cases c <;> rfl

@[simp] theorem State.setCh_pos (s : State) (c : Ch) (r : ChanRegs) : (s.setCh c r).pos = s.pos := by
  cases c <;> rfl

@[simp] theorem State.setCh_status (s : State) (c : Ch) (r : ChanRegs) : (s.setCh c r).status = s.status := by
  cases c <;> rfl

@[simp] theorem State.setCh_irq (s : State) (c : Ch) (r : ChanRegs) : (s.setCh c r).irq = s.irq := by
  cases c <;> rfl

@[simp] theorem State.setCh_decodeReady (s : State) (c : Ch) (r : ChanRegs) : (s.setCh c r).decodeReady = s.decodeReady := by
  cases c <;> rfl

@[simp] theorem State.setCh_buffersOverlap (s : State) (c : Ch) (r : ChanRegs) : (s.setCh c r).buffersOverlap = s.buffersOverlap := by
  cases c <;> rfl

@[simp] theorem State.setCh_chanBits (s : State) (c : Ch) (r : ChanRegs) : (s.setCh c r).chanBits = s.chanBits := by
  cases c <;> rfl

@[simp] theorem State.setCh_zeroRunMask (s : State) (c : Ch) (r : ChanRegs) : (s.setCh c r).zeroRunMask = s.zeroRunMask := by
  cases c <;> rfl

@[simp] theorem State.setCh_nextK (s : State) (c : Ch) (r : ChanRegs) : (s.setCh c r).nextK = s.nextK := by
  cases c <;> rfl

@[simp] theorem State.setDataOut_endPos (s : State) (v : Word) : (s.setDataOut v).endPos = s.endPos := rfl

@[simp] theorem State.setDataOut_decodeReady (s : State) (v : Word) : (s.setDataOut v).decodeReady = s.decodeReady := rfl

@[simp] theorem State.setDataOut_buffersOverlap (s : State) (v : Word) : (s.setDataOut v).buffersOverlap = s.buffersOverlap := rfl

@[simp] theorem State.setDataOut_op (s : State) (v : Word) : (s.setDataOut v).op = s.op := rfl

@[simp] theorem State.setCursor_slot (s : State) (c : Cursor) (i : Nat) : (s.setCursor c).slot i = s.slot i := rfl

@[simp] theorem State.setCursor_ch (s : State) (c : Cursor) (k : Ch) : (s.setCursor c).ch k = s.ch k := by
  cases k <;> rfl

@[simp] theorem State.setCursor_inByte (s : State) (c : Cursor) (j : Nat) : (s.setCursor c).inByte j = s.inByte j := rfl

@[simp] theorem State.setCfg_slot (s : State) (c : StreamCfg) (i : Nat) : (s.setCfg c).slot i = s.slot i := rfl

@[simp] theorem State.setCfg_ch (s : State) (c : StreamCfg) (k : Ch) : (s.setCfg c).ch k = s.ch k := by
  cases k <;> rfl

@[simp] theorem State.setCfg_inByte (s : State) (c : StreamCfg) (j : Nat) : (s.setCfg c).inByte j = s.inByte j := rfl

@[simp] theorem State.setRice_slot (s : State) (r : Rice) (i : Nat) : (s.setRice r).slot i = s.slot i := rfl

@[simp] theorem State.setRice_ch (s : State) (r : Rice) (k : Ch) : (s.setRice r).ch k = s.ch k := by
  cases k <;> rfl

@[simp] theorem State.setRice_inByte (s : State) (r : Rice) (j : Nat) : (s.setRice r).inByte j = s.inByte j := rfl

@[simp] theorem State.setParser_slot (s : State) (p : Parser) (i : Nat) : (s.setParser p).slot i = s.slot i := rfl

@[simp] theorem State.setParser_ch (s : State) (p : Parser) (k : Ch) : (s.setParser p).ch k = s.ch k := by
  cases k <;> rfl

@[simp] theorem State.setParser_inByte (s : State) (p : Parser) (j : Nat) : (s.setParser p).inByte j = s.inByte j := rfl

@[simp] theorem State.setMem_slot (s : State) (m : Memory) (i : Nat) : (s.setMem m).slot i = s.slot i := rfl

@[simp] theorem State.setMem_ch (s : State) (m : Memory) (k : Ch) : (s.setMem m).ch k = s.ch k := by
  cases k <;> rfl

@[simp] theorem State.goto_slot (s : State) (g : Stage) (c : Ch) (i : Nat) : (s.goto g c).slot i = s.slot i := rfl

@[simp] theorem State.goto_ch (s : State) (g : Stage) (c : Ch) (k : Ch) : (s.goto g c).ch k = s.ch k := by
  cases k <;> rfl

@[simp] theorem State.goto_inByte (s : State) (g : Stage) (c : Ch) (j : Nat) : (s.goto g c).inByte j = s.inByte j := rfl

@[simp] theorem State.setHost_slot (s : State) (l : List HostOp) (i : Nat) : (s.setHost l).slot i = s.slot i := rfl

@[simp] theorem State.setHost_ch (s : State) (l : List HostOp) (k : Ch) : (s.setHost l).ch k = s.ch k := by
  cases k <;> rfl

@[simp] theorem State.setHost_inByte (s : State) (l : List HostOp) (j : Nat) : (s.setHost l).inByte j = s.inByte j := rfl

/-- Writing the cursor twice keeps the last. -/
@[simp] theorem State.setCursor_setCursor (s : State) (c d : Cursor) : (s.setCursor c).setCursor d = s.setCursor d := rfl

/-- Writing the cursor back changes nothing. -/
@[simp] theorem State.setCursor_self (s : State) : s.setCursor s.cursor = s := rfl

end Sys2Proof.Machine
end

