-- ==== Sys2Proof/Laws/Memory.lean ====
section
/-! SUPPORT. The host memory: every operation keeps the canonical form, a read after a write gives the byte written, and a write
leaves every other address alone. -/

namespace Sys2Proof.Machine

/-! ### Cells -/

theorem lookupCell_insertCell_same (l : List Host.Cell) (a : Nat) (v : Byte) :
    lookupCell (insertCell l a v) a = some v := by
  induction l with
  | nil => simp [insertCell, lookupCell]
  | cons c rest ih =>
    obtain ⟨b, w⟩ := c
    unfold insertCell
    split
    · simp [lookupCell]
    · split
      · simp [lookupCell]
      · simp [lookupCell, *]

theorem lookupCell_insertCell_other (l : List Host.Cell) (a b : Nat) (v : Byte) (h : b ≠ a) :
    lookupCell (insertCell l a v) b = lookupCell l b := by
  induction l with
  | nil => simp [insertCell, lookupCell, h]
  | cons c rest ih =>
    obtain ⟨x, w⟩ := c
    unfold insertCell
    split
    · simp [lookupCell, h]
    · split
      · subst_vars; simp [lookupCell, h]
      · simp [lookupCell, ih]

theorem insertCell_bound (l : List Host.Cell) (a : Nat) (v : Byte) (P : Nat → Prop) (ha : P a)
    (h : ∀ c ∈ l, P c.1) : ∀ c ∈ insertCell l a v, P c.1 := by
  induction l with
  | nil => simpa [insertCell] using ha
  | cons c rest ih =>
    obtain ⟨b, w⟩ := c
    have hb : P b := h (b, w) (by simp)
    have hr : ∀ c ∈ rest, P c.1 := fun c hc => h c (by simp [hc])
    unfold insertCell
    split
    · simp only [List.mem_cons, forall_eq_or_imp]; exact ⟨ha, hb, hr⟩
    · split
      · simp only [List.mem_cons, forall_eq_or_imp]; exact ⟨ha, hr⟩
      · simp only [List.mem_cons, forall_eq_or_imp]; exact ⟨hb, ih hr⟩

theorem insertCell_sorted (l : List Host.Cell) (a : Nat) (v : Byte)
    (h : l.Pairwise fun x y => x.1 < y.1) : (insertCell l a v).Pairwise fun x y => x.1 < y.1 := by
  induction l with
  | nil => simp [insertCell]
  | cons c rest ih =>
    obtain ⟨b, w⟩ := c
    rw [List.pairwise_cons] at h
    unfold insertCell
    split
    · rename_i hab
      refine List.pairwise_cons.2 ⟨?_, List.pairwise_cons.2 h⟩
      simp only [List.mem_cons, forall_eq_or_imp]
      exact ⟨hab, fun c hc => Nat.lt_trans hab (h.1 c hc)⟩
    · split
      · subst_vars; exact List.pairwise_cons.2 ⟨h.1, h.2⟩
      · refine List.pairwise_cons.2 ⟨?_, ih h.2⟩
        exact insertCell_bound rest a v (b < ·) (by omega) h.1

/-! ### Memory -/

theorem Memory.insert_wf {m : Memory} (h : m.wf) (a : Word) (v : Byte) :
    Memory.wf { m with cells := insertCell m.cells a.toNat v } :=
  ⟨insertCell_sorted _ _ _ h.1, insertCell_bound _ _ _ (· < 2 ^ 32) a.isLt h.2⟩

/-- What a write does: it changes only the cells, at one address. -/
theorem Memory.write_cases {m m' : Memory} {a : Word} {v : Byte} (h : m.write a v = some m') :
    m.serves a.toNat = true ∧ m' = { m with cells := insertCell m.cells a.toNat v } := by
  unfold Memory.write at h
  split at h
  · rename_i hs; simp only [Option.some.injEq] at h; exact ⟨hs, h.symm⟩
  · cases h

theorem Memory.write_wf {m m' : Memory} {a : Word} {v : Byte} (h : m.wf) (hw : m.write a v = some m') : m'.wf := by
  obtain ⟨-, rfl⟩ := Memory.write_cases hw; exact Memory.insert_wf h a v

theorem Memory.write_unserved {m m' : Memory} {a : Word} {v : Byte} (hw : m.write a v = some m') :
    m'.unserved = m.unserved := by
  obtain ⟨-, rfl⟩ := Memory.write_cases hw; rfl

theorem Memory.read_write_same {m m' : Memory} {a : Word} {v : Byte} (hw : m.write a v = some m') :
    m'.read a = some v := by
  obtain ⟨hs, rfl⟩ := Memory.write_cases hw
  unfold Memory.read
  rw [if_pos (by exact hs)]
  exact lookupCell_insertCell_same _ _ _

theorem Memory.read_write_other {m m' : Memory} {a b : Word} {v : Byte} (hw : m.write a v = some m') (h : b ≠ a) :
    m'.read b = m.read b := by
  obtain ⟨-, rfl⟩ := Memory.write_cases hw
  have hn : b.toNat ≠ a.toNat := fun hc => h (BitVec.eq_of_toNat_eq hc)
  simp only [Memory.read, lookupCell_insertCell_other _ _ _ _ hn]
  rfl

/-- Where every address is served, a write succeeds. -/
theorem Memory.write_isSome {m : Memory} (h : m.unserved = []) (a : Word) (v : Byte) : (m.write a v).isSome = true := by
  simp [Memory.write, Memory.serves, h]

theorem Memory.writeAll_wf {l : List (Word × Byte)} {m m' : Memory} (h : m.wf) (hw : m.writeAll l = some m') :
    m'.wf := by
  induction l generalizing m with
  | nil => simp only [Memory.writeAll, Option.some.injEq] at hw; exact hw ▸ h
  | cons c rest ih =>
    obtain ⟨a, v⟩ := c
    simp only [Memory.writeAll, Option.bind_eq_some_iff] at hw
    obtain ⟨m1, h1, h2⟩ := hw
    exact ih (Memory.write_wf h h1) h2

theorem Memory.writeAll_unserved {l : List (Word × Byte)} {m m' : Memory} (hw : m.writeAll l = some m') :
    m'.unserved = m.unserved := by
  induction l generalizing m with
  | nil => simp only [Memory.writeAll, Option.some.injEq] at hw; exact hw ▸ rfl
  | cons c rest ih =>
    obtain ⟨a, v⟩ := c
    simp only [Memory.writeAll, Option.bind_eq_some_iff] at hw
    obtain ⟨m1, h1, h2⟩ := hw
    rw [ih h2, Memory.write_unserved h1]

/-- A list of writes leaves every address it does not name alone. -/
theorem Memory.read_writeAll_other {l : List (Word × Byte)} {m m' : Memory} {a : Word}
    (hw : m.writeAll l = some m') (h : ∀ c ∈ l, c.1 ≠ a) : m'.read a = m.read a := by
  induction l generalizing m with
  | nil => simp only [Memory.writeAll, Option.some.injEq] at hw; exact hw ▸ rfl
  | cons c rest ih =>
    obtain ⟨b, v⟩ := c
    simp only [Memory.writeAll, Option.bind_eq_some_iff] at hw
    obtain ⟨m1, h1, h2⟩ := hw
    simp only [List.mem_cons, forall_eq_or_imp] at h
    rw [ih h2 h.2, Memory.read_write_other h1 (Ne.symm h.1)]

theorem Memory.writeAll_isSome {l : List (Word × Byte)} {m : Memory} (h : m.unserved = []) :
    (m.writeAll l).isSome = true := by
  induction l generalizing m with
  | nil => rfl
  | cons c rest ih =>
    obtain ⟨a, v⟩ := c
    obtain ⟨m1, h1⟩ := Option.isSome_iff_exists.1 (Memory.write_isSome h a v)
    simp only [Memory.writeAll, h1, Option.bind_some]
    exact ih ((Memory.write_unserved h1).trans h)

/-- Two lists of writes, one after the other. -/
theorem Memory.writeAll_append (l k : List (Word × Byte)) (m : Memory) :
    m.writeAll (l ++ k) = (m.writeAll l).bind fun m' => m'.writeAll k := by
  induction l generalizing m with
  | nil => rfl
  | cons c rest ih =>
    obtain ⟨a, v⟩ := c
    simp only [List.cons_append, Memory.writeAll]
    cases m.write a v with
    | none => rfl
    | some m1 => simp only [Option.bind_some]; exact ih m1

theorem Memory.place_wf {m : Memory} (h : m.wf) (a : Word) (l : List Byte) : (m.place a l).wf := by
  induction l generalizing m a with
  | nil => exact h
  | cons b rest ih => exact ih (Memory.insert_wf h a b) (a + 1#32)

/-- Reset memory is in canonical form. -/
theorem State.reset_mem_wf : State.reset.mem.wf := by decide

end Sys2Proof.Machine
end

