-- ==== Sys2Proof/Laws/Ops.lean ====
section
/-! SUPPORT. What each shared operation can do, said once. The operations of the BitReader only move the cursor: if they answer a
value the state differs in the cursor alone, if they raise an error it is `MalformedStream`, and if there is no step it is
for want of a byte (`Res.MovesCursor`). -/

namespace Sys2Proof.Machine

/-! ### Results -/

@[simp] theorem Res.bind_ok {α β : Type} (a : α) (s : State) (g : α → State → Res β) :
    (Res.ok a s).bind g = g a s := rfl

@[simp] theorem Res.bind_raised {α β : Type} (e : ErrKind) (s : State) (g : α → State → Res β) :
    (Res.raised e s : Res α).bind g = .raised e s := rfl

@[simp] theorem Res.bind_stuck {α β : Type} (f : Fault) (g : α → State → Res β) :
    (Res.stuck f : Res α).bind g = .stuck f := rfl

theorem Res.bind_eq_ok {α β : Type} {r : Res α} {g : α → State → Res β} {b : β} {t : State} :
    r.bind g = .ok b t ↔ ∃ a s, r = .ok a s ∧ g a s = .ok b t := by
  cases r <;> simp

theorem Res.bind_eq_raised {α β : Type} {r : Res α} {g : α → State → Res β} {e : ErrKind} {t : State} :
    r.bind g = .raised e t ↔ r = .raised e t ∨ ∃ a s, r = .ok a s ∧ g a s = .raised e t := by
  cases r <;> simp

theorem Res.bind_eq_stuck {α β : Type} {r : Res α} {g : α → State → Res β} {f : Fault} :
    r.bind g = .stuck f ↔ r = .stuck f ∨ ∃ a s, r = .ok a s ∧ g a s = .stuck f := by
  cases r <;> simp

theorem Res.bind_assoc {α β γ : Type} (r : Res α) (g : α → State → Res β) (h : β → State → Res γ) :
    (r.bind g).bind h = r.bind fun a s => (g a s).bind h := by
  cases r <;> rfl

@[simp] theorem require_true (e : ErrKind) (s : State) : require true e s = .ok () s := rfl

@[simp] theorem require_false (e : ErrKind) (s : State) : require false e s = .raised e s := rfl

@[simp] theorem Res.outcome_ok (a : Unit) (s : State) : (Res.ok a s).outcome = .next s := rfl

@[simp] theorem Res.outcome_raised (e : ErrKind) (s : State) :
    (Res.raised e s : Res Unit).outcome = .next (s.raiseError e) := rfl

@[simp] theorem Res.outcome_stuck (f : Fault) : (Res.stuck f : Res Unit).outcome = .fault f := rfl

/-- An instruction answers a next state in two ways: its operation ran, or it raised an error that ends the command. -/
theorem Res.outcome_eq_next {r : Res Unit} {t : State} :
    r.outcome = .next t ↔ r = .ok () t ∨ ∃ e s, r = .raised e s ∧ s.raiseError e = t := by
  cases r <;> simp [Res.outcome]

/-- No instruction is refused. -/
theorem Res.outcome_ne_refused (r : Res Unit) (x : Refusal) : r.outcome ≠ .refused x := by
  cases r <;> simp [Res.outcome]

/-! ### Taking an error -/

/-- The error of a state does not see the registers it leaves unspecified (R285). -/
theorem State.raiseError_setParser (s : State) (p : Parser) (e : ErrKind) :
    (s.setParser p).raiseError e = s.raiseError e := rfl

theorem State.raiseError_setRice (s : State) (r : Rice) (e : ErrKind) :
    (s.setRice r).raiseError e = s.raiseError e := rfl

theorem State.raiseError_setCh (s : State) (c : Ch) (r : ChanRegs) (e : ErrKind) :
    (s.setCh c r).raiseError e = s.raiseError e := by
  cases c <;> rfl

/-! ### Operations that only move the cursor -/

/-- The cursor is inside the input, at a position the signed `BYTE_IDX` can hold (R28). -/
abbrev State.Inside (s : State) : Prop := s.pos ≤ s.endPos ∧ s.cursor.byteIdx.toNat < 2 ^ 31

/-- The operation run at s moves the cursor and does nothing else; where it answers a value and the cursor was inside the
input, the cursor is inside it still. -/
def Res.MovesCursor {α : Type} (s : State) : Res α → Prop
  | .ok _ t => ∃ c, t = s.setCursor c ∧ (s.Inside → t.Inside)
  | .raised e t => e = .malformedStream ∧ ∃ c, t = s.setCursor c
  | .stuck f => f = .busError

theorem Res.MovesCursor.ok_same {α : Type} (s : State) (a : α) : (Res.ok a s).MovesCursor s :=
  ⟨s.cursor, rfl, id⟩

/-- Where the cursor starts does not matter to what is written, but it does to where it ends: composed operations. -/
theorem Res.MovesCursor.bind {α β : Type} {s : State} {r : Res α} {g : α → State → Res β} (h : r.MovesCursor s)
    (hg : ∀ a c, (g a (s.setCursor c)).MovesCursor (s.setCursor c)) : (r.bind g).MovesCursor s := by
  cases r with
  | ok a t =>
    obtain ⟨c, rfl, hin⟩ := h
    have := hg a c
    rw [Res.bind_ok]
    revert this
    cases g a (s.setCursor c) with
    | ok b u => rintro ⟨d, rfl, hin'⟩; exact ⟨d, rfl, fun hs => hin' (hin hs)⟩
    | raised e u => rintro ⟨rfl, d, rfl⟩; exact ⟨rfl, d, rfl⟩
    | stuck f => exact id
  | raised e t => exact h
  | stuck f => exact h

theorem checkEnd_cases (s : State) :
    checkEnd s = .raised .malformedStream s ∨ checkEnd s = .ok () s ∧ s.Inside := by
  unfold checkEnd
  split
  · exact .inl rfl
  · rename_i h
    refine .inr ⟨rfl, ?_⟩
    simp only [BitVec.msb_eq_decide, decide_eq_true_eq] at h
    constructor <;> omega

/-- Inside the input the check passes. -/
theorem checkEnd_inside {s : State} (h : s.Inside) : checkEnd s = .ok () s := by
  unfold checkEnd
  rw [if_neg]
  simp only [BitVec.msb_eq_decide, decide_eq_true_eq]
  have := h.1; have := h.2
  omega

/-- Past the end it raises `MalformedStream` and leaves the cursor there (R127, R285). -/
theorem checkEnd_outside {s : State} (h : s.endPos < s.pos) : checkEnd s = .raised .malformedStream s :=
  if_pos (.inr h)

theorem checkEnd_setCursor_moves (s : State) (c : Cursor) : (checkEnd (s.setCursor c)).MovesCursor s := by
  rcases checkEnd_cases (s.setCursor c) with h | ⟨h, hin⟩
  · rw [h]; exact ⟨rfl, c, rfl⟩
  · rw [h]; exact ⟨c, rfl, fun _ => hin⟩

theorem advance_moves (n : Nat) (s : State) : (advance n s).MovesCursor s := checkEnd_setCursor_moves s _

theorem align_moves (s : State) : (align s).MovesCursor s := by
  unfold align
  split
  · exact checkEnd_setCursor_moves s s.cursor
  · exact checkEnd_setCursor_moves s _

/-- The position of a cursor that is set to position p (below 2^35 the byte index holds it). -/
theorem State.cursorAt_pos (s : State) {p : Nat} (h : p < 2 ^ 35) : (s.cursorAt p).pos = p := by
  simp only [State.cursorAt, State.pos, State.setCursor_cursor, BitVec.toNat_ofNat]
  omega

theorem State.cursorAt_byteIdx (s : State) {p : Nat} (h : p < 2 ^ 35) :
    (s.cursorAt p).cursor.byteIdx.toNat = p / 8 := by
  simp only [State.cursorAt, State.setCursor_cursor, BitVec.toNat_ofNat]
  omega

/-- The position of a state is below 2^35. -/
theorem State.pos_lt (s : State) : s.pos < 2 ^ 35 := by
  have h1 := s.cursor.byteIdx.isLt
  have h2 := s.cursor.bitOff.isLt
  unfold State.pos
  omega

/-- A state is at its own position. -/
theorem State.cursorAt_self (s : State) : s.cursorAt s.pos = s := by
  have h1 := s.cursor.byteIdx.isLt
  have h2 := s.cursor.bitOff.isLt
  have hc : (⟨BitVec.ofNat 32 (s.pos / 8), BitVec.ofNat 3 (s.pos % 8)⟩ : Cursor) = s.cursor := by
    rcases hcur : s.cursor with ⟨b, o⟩
    simp only [hcur, State.pos, Cursor.mk.injEq] at *
    constructor <;> apply BitVec.eq_of_toNat_eq <;> simp only [BitVec.toNat_ofNat] <;> omega
  unfold State.cursorAt
  rw [hc, State.setCursor_self]

/-- Forward by n bits is the cursor at `pos + n` (R130). -/
theorem State.forward_eq_cursorAt (s : State) (n : Nat) :
    s.setCursor (s.cursor.forward n) = s.cursorAt (s.pos + n) := by
  have h1 := s.cursor.byteIdx.isLt
  have h2 := s.cursor.bitOff.isLt
  unfold State.cursorAt Cursor.forward
  congr 1
  simp only [Cursor.mk.injEq]
  constructor <;> apply BitVec.eq_of_toNat_eq <;>
    simp only [State.pos, BitVec.toNat_add, BitVec.toNat_ofNat] at * <;> omega

/-- `unread_bits` goes back by n, or raises and leaves the cursor (R129). -/
theorem unreadBits_cases (n : Nat) (s : State) :
    (2 ^ 31 ≤ s.cursor.byteIdx.toNat ∨ s.pos < n) ∧ unreadBits n s = .raised .malformedStream s ∨
      s.cursor.byteIdx.toNat < 2 ^ 31 ∧ n ≤ s.pos ∧ unreadBits n s = .ok () (s.cursorAt (s.pos - n)) := by
  unfold unreadBits
  simp only [BitVec.msb_eq_decide, decide_eq_true_eq]
  split
  · rename_i h; exact .inl ⟨by omega, rfl⟩
  · rename_i h; exact .inr ⟨by omega, by omega, rfl⟩

theorem unreadBits_moves (n : Nat) (s : State) : (unreadBits n s).MovesCursor s := by
  rcases unreadBits_cases n s with ⟨-, h⟩ | ⟨-, hn, h⟩
  · rw [h]; exact ⟨rfl, s.cursor, rfl⟩
  · rw [h]
    refine ⟨_, rfl, fun hin => ?_⟩
    have hp := s.pos_lt
    have h1 := s.cursor.bitOff.isLt
    have h2 := hin.1
    have h3 := hin.2
    refine ⟨?_, ?_⟩
    · rw [State.cursorAt_pos _ (by omega)]; exact Nat.le_trans (Nat.sub_le _ _) h2
    · rw [State.cursorAt_byteIdx _ (by omega)]
      unfold State.pos
      omega

theorem read16_moves (n : Nat) (s : State) : (read16 n s).MovesCursor s := by
  unfold read16
  split
  · exact (advance_moves n s).bind fun _ c => Res.MovesCursor.ok_same _ _
  · exact rfl

theorem readBits_moves (n : Nat) (s : State) : (readBits n s).MovesCursor s := by
  unfold readBits
  split
  · exact read16_moves n s
  · exact (read16_moves _ s).bind fun _ c => (read16_moves _ _).bind fun _ d => Res.MovesCursor.ok_same _ _

theorem readBit_moves (s : State) : (readBit s).MovesCursor s := by
  unfold readBit
  split
  · exact (advance_moves 1 s).bind fun _ c => Res.MovesCursor.ok_same _ _
  · exact rfl

theorem fetchFields_moves {α : Type} (f : Fields α) (s : State) : (fetchFields f s).MovesCursor s := by
  induction f generalizing s with
  | done a => exact Res.MovesCursor.ok_same s a
  | field n k ih => exact (readBits_moves n s).bind fun v c => ih _ _
  | bit k ih => exact (readBit_moves s).bind fun b c => ih _ _
  | back f ih => exact (unreadBits_moves 1 s).bind fun _ c => ih _

theorem rawSample_moves (size : Nat) (s : State) : (rawSample size s).MovesCursor s := by
  unfold rawSample
  split
  · exact (readBits_moves _ s).bind fun _ c => Res.MovesCursor.ok_same _ _
  · exact (readBits_moves _ s).bind fun _ _ => (readBits_moves _ _).bind fun _ _ => Res.MovesCursor.ok_same _ _

theorem decodeValue_moves (w k : Nat) (mask : Word) (s : State) : (decodeValue w k mask s).MovesCursor s :=
  (fetchFields_moves _ s).bind fun _ _ => Res.MovesCursor.ok_same _ _

/-- An optional second read, for channel 1 of a CPE. -/
theorem ite_moves {α : Type} (p : Prop) [Decidable p] {r r' : Res α} {s : State} (h : r.MovesCursor s)
    (h' : r'.MovesCursor s) : (if p then r else r').MovesCursor s := by
  split
  · exact h
  · exact h'

theorem lowPlanes_moves (nch width n : Nat) (s : State) : (lowPlanes nch width n s).MovesCursor s := by
  induction n generalizing s with
  | zero => exact Res.MovesCursor.ok_same s []
  | succ n ih =>
    exact (readBits_moves _ s).bind fun a c =>
      (ite_moves _ (readBits_moves _ _) (Res.MovesCursor.ok_same _ _)).bind fun b d =>
        (ih _).bind fun l e => Res.MovesCursor.ok_same _ _

theorem rawSamples_moves (nch size : Nat) (bug : Bool) (n : Nat) (s : State) :
    (rawSamples nch size bug n s).MovesCursor s := by
  induction n generalizing s with
  | zero => exact Res.MovesCursor.ok_same s []
  | succ n ih =>
    exact (rawSample_moves _ s).bind fun a c =>
      (ite_moves _ (rawSample_moves _ _) (Res.MovesCursor.ok_same _ _)).bind fun b d =>
        (ih _).bind fun l e => Res.MovesCursor.ok_same _ _

/-! ### The end of an element -/

/-- The predictor of one channel (R247): it writes that channel's registers, or raises `MalformedStream`. -/
theorem reconstruct_cases (c : Ch) (s : State) :
    reconstruct c s = .raised .malformedStream s ∧ reconstructChan s.chanBits.toNat (s.ch c) = none ∨
      ∃ r, reconstructChan s.chanBits.toNat (s.ch c) = some r ∧ reconstruct c s = .ok () (s.setCh c r) := by
  unfold reconstruct
  split
  · rename_i h; exact .inl ⟨rfl, h⟩
  · rename_i r h; exact .inr ⟨r, h, rfl⟩

/-- The end of an audio element: its bytes are written, `CI` grows, the next tag is due; or there is no step. -/
theorem finishElement_cases (s : State) :
    finishElement s = .stuck .busError ∧ s.mem.writeAll s.elementBytes = none ∨
      ∃ m, s.mem.writeAll s.elementBytes = some m ∧
        finishElement s = .ok () (((s.setMem m).setParser
          { s.parser with ci := s.parser.ci + s.nch, state := .fetchTag }).goto .element .c0) := by
  unfold finishElement
  split
  · rename_i h; exact .inl ⟨rfl, h⟩
  · rename_i m h; exact .inr ⟨m, h, rfl⟩

end Sys2Proof.Machine
end

