-- ==== Sys2Proof/Certificates/Slice0/Obligations.lean ====
section
/-! DEFINITION. The statements about the core, in the order of OBLIGATIONS.json. Words used in them: the input is read as a
numbered sequence of bits (`State.streamNat`, rule R62 of spec/20_memory.md); `State.cursorAt` puts the cursor at a bit
position; `State.CanRead n` says that n bits can be read at the cursor. `IN_LEN` is an unsigned number of bytes in all of
them (log 17). -/

open Sys2Proof Sys2Proof.Machine

/-! ### The machine and its encodings -/

/-- The raw width of a residual's codeword and of the predictor's output, chanBits (R243): `CFG_BITS - 8*UB`, and one more for
a CPE. -/
def Sys2Proof.Machine.State.codewordWidth (s : State) : Nat :=
  s.cfg.bits.toNat + (if s.parser.state = .cpe then 1 else 0) - 8 * s.parser.ub.toNat

/-- The parameter of the codeword that is due, as the rules write it: R162 for a zero run, R152 for a residual. -/
def Sys2Proof.Machine.State.dueParameter (s : State) : Word :=
  if s.stage = .zeroRun then
    BitVec.ofNat 32 (lz s.rice.history) + (s.rice.history + 16#32).sdiv 64#32 - 24#32
  else
    let kmod := s.cfg.kmod.setWidth 32
    let k0 := 31#32 - kmod - BitVec.ofNat 32 (lz (s.rice.history.sshiftRight 9 + 3#32))
    if k0.toInt < 0 then k0 + kmod else kmod

/-- What the stream holds next: an element at a tag (R88), a predictor header (R245), the codeword of a residual under raw
width chanBits and parameter `K` (R97, R160), or that of a zero run under the parameter of R162 (R98, R163). -/
def Sys2Proof.Machine.State.dueForm (s : State) : Option Form :=
  match s.stage with
  | .element => some (.element s.params.filDse)
  | .predictor => some .predictor
  | .residual => some (.codeword s.codewordWidth s.dueParameter.toNat)
  | .zeroRun => some (.zeroRun s.dueParameter.toNat)
  | .idle | .command => none

/-- R13, R230, R296: a step whose turn is the core's runs the instruction it has come to: none when no command runs; the
command word in `CMD`, where no two buffers overlap (DecodePreconditions has the other case); or, in a stage that reads the stream, what the decoder reads from the input bits at the cursor, with
the cursor after it. The form it reads is `State.dueForm`. R165: a negative parameter raises `MalformedStream` with the
cursor unmoved. R127, R285: an instruction that the input cuts short raises `MalformedStream` with the cursor past the end.
The cut of a command into such steps is the model's (log 1), as is the range of byte indexes (below 2^31, log 10); widths
are at most 32 bits (R121). R16: a step whose turn is the host's does the host's next operation. That the host's operations
are a list in the state, and that `turns` and `wait` leave the core its turns, is the model's choice (log 2, DESIGN
CHOICE). -/
def Obligations.StepRunsTheDecodedInstruction : Prop :=
  (∀ (s : State) (o : HostOp) (rest : List HostOp),
    (s.turn = .host o rest → step s = hostStep o (s.setHost rest)) ∧
    (s.host = [] → s.turn = .core []) ∧
    (∀ n, s.host = .turns (n + 1) :: rest → s.turn = .core (.turns n :: rest)) ∧
    (s.host = .turns 0 :: rest → s.turn = .host (.turns 0) rest ∧ hostStep (.turns 0) s = .next s) ∧
    (s.host = .wait :: rest →
      s.turn = (if s.port.busy then .core (.wait :: rest) else .host .wait rest) ∧ hostStep .wait s = .next s) ∧
    (s.host = o :: rest → (∀ n, o ≠ .turns n) → o ≠ .wait → s.turn = .host o rest)) ∧
  ∀ (s : State) (rest : List HostOp), s.turn = .core rest →
    (s.stage = .idle → step s = .next (s.setHost rest)) ∧
    (s.stage = .command → s.buffersOverlap = false → step s = exec (decodeCommand s.port.cmd) (s.setHost rest)) ∧
    (s.stage = .residual ∨ s.stage = .zeroRun → s.dueParameter.toInt < 0 →
      step s = .next ((s.setHost rest).raiseError .malformedStream)) ∧
    ∀ f : Form, s.dueForm = some f → (s.stage = .residual ∨ s.stage = .zeroRun → 0 ≤ s.dueParameter.toInt) →
      (match f with | .codeword w k => w ≤ 32 ∧ k ≤ 32 | .zeroRun k => k ≤ 32 | _ => True) →
      s.InputReadable → s.port.inLen.toNat < 2 ^ 31 →
      let bits := (List.range s.endPos).map s.streamBit
      (∀ (i : Instr) (p : Nat), decodeAt f bits s.pos = .ok (i, p) → step s = exec i ((s.setHost rest).cursorAt p)) ∧
      (s.pos ≤ s.endPos → decodeAt f bits s.pos = .error .truncated →
        ∃ p, s.endPos < p ∧ step s = .next (((s.setHost rest).cursorAt p).raiseError .malformedStream))

/-- Every well-formed command word, element and predictor header with its coefficients decodes to itself, with every operand
at every value, whatever bits follow it, and takes exactly its own bits. -/
def Obligations.DecodeOfEncode : Prop :=
  ∀ (f : Form) (i : Instr) (rest : List Bool),
    (match f with | .codeword _ _ => False | .zeroRun _ => False | _ => True) → i.wf f = true →
    decode f (encode f i ++ rest) = .ok (i, (encode f i).length)

/-- Every well-formed Rice codeword decodes to itself under every raw width and parameter the core can hold, as a residual and
as a zero run. At least one bit follows it: the decoder over-reads a suffix of 0 or 1 by one bit and pushes it back. R98: a
zero run is read as a codeword of raw width 16. -/
def Obligations.DecodeOfEncodeCodeword : Prop :=
  (∀ (w k : Nat) (c : Codeword) (rest : List Bool), w ≤ 32 → k ≤ 31 → rest ≠ [] →
    (c.wf w k = true →
      decode (.codeword w k) (encode (.codeword w k) (residualOf c) ++ rest) =
        .ok (residualOf c, codewordLength w k c)) ∧
    (c.wf 16 k = true →
      decode (.zeroRun k) (encode (.zeroRun k) (.zeroRun c) ++ rest) = .ok (.zeroRun c, codewordLength 16 k c))) ∧
  ∀ (k : Nat) (bits : List Bool) (pos p : Nat) (c : Codeword),
    decodeAt (.zeroRun k) bits pos = .ok (.zeroRun c, p) ↔ decodeAt (.codeword 16 k) bits pos = .ok (residualOf c, p)

/-- Every 32-bit word is one command: the decoder reads a well-formed instruction from it, whose encoding is the word. -/
def Obligations.CommandWordsReadOneWay : Prop :=
  ∀ w : BitVec 32, (decodeCommand w).wf .command = true ∧ encode .command (decodeCommand w) = fieldBits w

/-- The decoder answers only well-formed instructions of the form it was asked for, and rejects nothing but bits that end too
early: a push-back never passes the start. -/
def Obligations.DecodedIsWellFormed : Prop :=
  (∀ (f : Form) (bits : List Bool) (pos p : Nat) (i : Instr),
    (match f with | .codeword w k => w ≤ 32 ∧ k ≤ 31 | .zeroRun k => k ≤ 31 | _ => True) →
    decodeAt f bits pos = .ok (i, p) → i.wf f = true) ∧
  ∀ (f : Form) (bits : List Bool) (pos : Nat), decodeAt f bits pos ≠ .error .beforeStart

/-- A few words written out from the encodings of spec/30_encoding.md decode to what they stand for. -/
def Obligations.WrittenWordsDecode : Prop :=
  decodeCommand 0x00001107#32 = .riceValue 16#6 4#6 ∧
  decodeCommand 0x00000143#32 = .brRead 20#6 0#6 ∧
  decodeCommand 0x00010000#32 = .reservedOp 0x00010000#32 ∧
  (decode (.element .doc) [true, false, false, true, true, true, true, false, false, false, false, false, false,
    true, true] = .ok (.gap 15#4 (some 3#8), 15)) ∧
  (decode (.element .doc) [true, true, false, false, false, false, false, true, false, false, false, false, false,
    false, true, false] = .ok (.fill 0#4 true 2#8 none, 16)) ∧
  (decode .predictor [false, false, false, false, true, false, false, false, true, false, false, false, false,
    false, false, true, false, false, false, false, false, false, false, true, false, false, false, false, false,
    false, false, false] = .ok (.predAdaptive 8#4 4#3 1#5 [256#16], 32)) ∧
  (decode (.codeword 16 3) [true, false, true, false, true] = .ok (.riceUnary 1#4 5#32, 5))

/-- The reset state meets the invariant. -/
def Obligations.ResetMeetsInvariant : Prop := State.reset.Inv

/-- Every step, the core's or the host's, keeps the invariant. -/
def Obligations.StepKeepsInvariant : Prop :=
  ∀ s t : State, s.Inv → step s = .next t → t.Inv

/-- R61: the core writes host memory only in the first `FRAME_BYTES_MAX` bytes of the output buffer. R73, R318: it never writes a
byte of the input buffer, which it fetches from. -/
def Obligations.CoreWritesOnlyOutput : Prop :=
  ∀ s t : State, s.Inv → coreStep s = .next t →
    (∀ a : Word, s.frameBytesMax.toNat ≤ (a - s.port.outAddr).toNat → t.mem.read a = s.mem.read a) ∧
    ∀ a : Word, (a - s.port.inAddr).toNat < s.port.inLen.toNat → t.mem.read a = s.mem.read a

/-- Whole-machine rules of what an instruction can write: only CONFIGURE writes the configuration; only the unit-test
commands that have a result write `DATA_OUT`; none writes the parameters, the host's list, the platform's map, or a
register the host owns. -/
def Obligations.WhoWritesWhat : Prop :=
  ∀ (i : Instr) (s t : State), exec i s = .next t →
    ((∀ a b, i ≠ .configure a b) → t.cfg = s.cfg) ∧
    ((∀ a b, i ≠ .brRead a b) → (∀ a b, i ≠ .brReadBit a b) → (∀ a b, i ≠ .lzc a b) →
      (∀ a b, i ≠ .riceValue a b) → t.port.dataOut = s.port.dataOut) ∧
    t.params = s.params ∧ t.host = s.host ∧ t.busData = s.busData ∧ t.mem.unserved = s.mem.unserved ∧
    t.port.cmd = s.port.cmd ∧ t.port.irqEn = s.port.irqEn ∧ t.port.cookieAddr = s.port.cookieAddr ∧
    t.port.cookieLen = s.port.cookieLen ∧ t.port.inAddr = s.port.inAddr ∧ t.port.inLen = s.port.inLen ∧
    t.port.outAddr = s.port.outAddr ∧ t.port.outCap = s.port.outCap ∧ t.port.chmap = s.port.chmap ∧
    t.port.dataIn = s.port.dataIn

/-- How a command ends: an instruction that leaves the core with nothing to read has ended its command, with `BUSY` 0, `DONE`
1 and a code of R280 in `ERR`, and with `OUT_LEN` 0 when a DECODE ends in an error; every other instruction leaves
`BUSY`, `DONE` and `ERR` alone. No instruction is refused. That every command word with OP 1 counts as a DECODE, also a
RESERVED_OP whose reserved bits are set, is the model's reading of R284 (log 9, DEDUCED). -/
def Obligations.CommandEndIsReported : Prop :=
  ∀ (i : Instr) (s : State),
    (∀ r, exec i s ≠ .refused r) ∧
    ∀ t, exec i s = .next t →
      (t.stage = .idle → t.port.busy = false ∧ t.port.done = true ∧ t.port.err.toNat ≤ 5 ∧
        (t.port.err ≠ 0#4 → s.op = 1#4 → t.port.outLen = 0#32)) ∧
      (t.stage ≠ .idle → t.port.busy = s.port.busy ∧ t.port.done = s.port.done ∧ t.port.err = s.port.err)

/-- A frame ends: from every state of the invariant with the host done, the core comes to a state that is not busy, or to a
fault, after some number of steps. -/
def Obligations.EveryFrameEnds : Prop :=
  ∀ s : State, s.Inv → s.host = [] →
    ∃ n, match core.run n s with
      | .next t => t.port.busy = false
      | .fault _ => True
      | .refused _ => False

/-- No state carries from an earlier frame: two cores that agree on the configuration, the host port, host memory and the
parameters, and differ in anything else (cursor, Rice registers, parser registers, coefficient tables, scratch buffers,
free values), do the same to host memory and the host port, step by step, when a DECODE runs on both. -/
def Obligations.NoStateBetweenFrames : Prop :=
  ∀ (s s' : State) (n : Nat), s.cfg = s'.cfg → s.port = s'.port → s.mem = s'.mem → s.params = s'.params →
    s.stage = .command → s'.stage = .command → s.op = 1#4 → s.host = [] → s'.host = [] →
    match core.run n s, core.run n s' with
    | .next t, .next t' => t.mem = t'.mem ∧ t.port = t'.port ∧ t.stage = t'.stage
    | .fault r, .fault r' => r = r'
    | _, _ => False

/-! ### The host port -/

/-- R230: a write of a word to `CMD` of a core that is not busy, no two buffers overlapping: `CMD` holds the word, `BUSY` 1, `DONE` 0, `ERR` 0, and the
command runs next; nothing else changes. R75: while `BUSY` is 1 a write to `CMD` or to any other register than `STATUS` and
`CTRL` changes nothing; a write to `STATUS` clears `DONE` when bit 1 is set, a write to `CTRL` sets `IRQ_EN`, and neither
changes anything else. -/
def Obligations.CmdWriteStartsCommand : Prop :=
  (∀ (s : State) (v : Word), s.port.busy = false → s.buffersOverlap = false →
    hostStep (.writeReg s.params.coreBase 4 v) s =
      .next { s with port := { s.port with cmd := v, busy := true, done := false, err := 0#4 }, stage := .command }) ∧
  ∀ (s : State) (off : Nat) (v : Word), s.port.busy = true → off < 256 → off % 4 = 0 →
    hostStep (.writeReg (s.params.coreBase + BitVec.ofNat 32 off) 4 v) s =
      .next (if off = 4 then { s with port := { s.port with done := s.port.done && !v.getLsbD 1 } }
        else if off = 8 then { s with port := { s.port with irqEn := v.getLsbD 0 } }
        else s)

/-- R24, R68: on a core that is not busy a read answers the register's value (`busData` is what the host receives) and changes no
register of the core. The value at each offset is the table of R24: the RW registers, the read-only views of `OUT_LEN`, the
cursor, `DATA_OUT` and the configuration, and 0 for `CMD` and the reserved offsets (the value of `STATUS` is the word of
R26). A write of an RW register makes it read as the word written (`CTRL` its bit 0) and changes nothing else; a write to a
read-only or reserved offset changes nothing. R71: while a command runs the result registers `OUT_LEN`, `CUR_BYTE`, `CUR_BIT`
and `DATA_OUT` answer a free value (log 4). R60, R73: the host writes and reads host memory a byte at a time, outside the
buffers also while a command runs. -/
def Obligations.RegistersReadBack : Prop :=
  (∀ (s : State) (off : Nat) (v : Word), s.port.busy = false → off < 256 → off % 4 = 0 →
    (off ≠ 0x00 ∨ s.buffersOverlap = false →
      hostStep (.writeReg (s.params.coreBase + BitVec.ofNat 32 off) 4 v) s = .next (s.writeReg off v)) ∧
    hostStep (.readReg (s.params.coreBase + BitVec.ofNat 32 off) 4) s = .next { s with busData := s.regValue off } ∧
    (off ∈ [0x0C, 0x10, 0x14, 0x18, 0x1C, 0x20, 0x28, 0x34] → (s.writeReg off v).regValue off = v) ∧
    (s.writeReg 0x08 v).regValue 0x08 = (v &&& 1#32) ∧
    (off ≠ 0x00 → s.writeReg off v = { s with port := (s.writeReg off v).port } ∧
      ∀ other, other ≠ off → (s.writeReg off v).regValue other = s.regValue other) ∧
    (off ∈ [0x24, 0x2C, 0x30, 0x38, 0x3C, 0x40, 0x44, 0x48] ∨ 0x4C ≤ off → s.writeReg off v = s) ∧
    (off ∈ [0x00, 0x3C] ∨ 0x4C ≤ off → s.regValue off = 0#32)) ∧
  (∀ s : State,
    s.regValue 0x04 = s.status ∧
    s.regValue 0x08 = (if s.port.irqEn then 1#32 else 0#32) ∧
    s.regValue 0x0C = s.port.cookieAddr ∧
    s.regValue 0x10 = s.port.cookieLen ∧
    s.regValue 0x14 = s.port.inAddr ∧
    s.regValue 0x18 = s.port.inLen ∧
    s.regValue 0x1C = s.port.outAddr ∧
    s.regValue 0x20 = s.port.outCap ∧
    s.regValue 0x24 = s.port.outLen ∧
    s.regValue 0x28 = s.port.chmap ∧
    s.regValue 0x2C = s.cursor.byteIdx ∧
    s.regValue 0x30 = BitVec.ofNat 32 s.cursor.bitOff.toNat ∧
    s.regValue 0x34 = s.port.dataIn ∧
    s.regValue 0x38 = s.port.dataOut ∧
    s.regValue 0x40 = s.cfg.maxSamples ∧
    (s.regValue 0x44).toNat = s.cfg.bits.toNat + 2 ^ 8 * s.cfg.histMult.toNat + 2 ^ 16 * s.cfg.initHist.toNat +
      2 ^ 24 * s.cfg.kmod.toNat ∧
    s.regValue 0x48 = BitVec.ofNat 32 s.cfg.numCh.toNat) ∧
  (∀ (s : State) (off : Nat), s.port.busy = true → off < 256 → off % 4 = 0 →
    hostStep (.readReg (s.params.coreBase + BitVec.ofNat 32 off) 4) s = .next
      (if off ∈ [0x24, 0x2C, 0x30, 0x38] then { s with busData := Config.freeWord s.draws, draws := s.draws + 1 }
        else { s with busData := s.regValue off })) ∧
  (∀ (s : State) (a : Word) (b : Byte), s.mem.unserved = [] →
    (s.port.busy = true → s.port.cookieLen.toNat ≤ (a - s.port.cookieAddr).toNat ∧
      s.port.inLen.toNat ≤ (a - s.port.inAddr).toNat ∧ s.port.outCap.toNat ≤ (a - s.port.outAddr).toNat) →
    ∃ m, hostStep (.writeMem a b) s = .next { s with mem := m } ∧ m.read a = some b ∧
      ∀ other, other ≠ a → m.read other = s.mem.read other) ∧
  ∀ (s : State) (a : Word) (b : Byte), s.mem.read a = some b →
    (s.port.busy = true → s.port.outCap.toNat ≤ (a - s.port.outAddr).toNat) →
    hostStep (.readMem a) s = .next { s with busData := b.setWidth 32 }

/-- R26: the word `STATUS` reads as: `BUSY`, `DONE`, `CONFIGURED` in bits 0 to 2, `ERR` in bits 7:4, the rest 0. A write of
`STATUS` clears `DONE` where its bit 1 is 1 and changes nothing else, `BUSY` and `ERR` among it, whether or not a command
runs. R287: the interrupt is high exactly when `DONE` and `IRQ_EN` are 1; a write of 1 to `DONE` lowers it, a write of 0 leaves
it. -/
def Obligations.StatusAndInterrupt : Prop :=
  ∀ (s : State) (v : Word),
    s.status.toNat = s.port.busy.toNat + 2 * s.port.done.toNat + 4 * s.cfg.configured.toNat +
      16 * s.port.err.toNat ∧
    hostStep (.writeReg (s.params.coreBase + 4#32) 4 v) s = .next (s.writeReg 4 v) ∧
    s.writeReg 4 v = { s with port := { s.port with done := s.port.done && !v.getLsbD 1 } } ∧
    (s.irq = true ↔ s.port.done = true ∧ s.port.irqEn = true) ∧
    (v.getLsbD 1 = true → (s.writeReg 4 v).irq = false) ∧
    (v.getLsbD 1 = false → (s.writeReg 4 v).irq = s.irq)

/-- R67, R73: what has no step: a register access that is not a 32-bit access at a 4-byte-aligned offset of the register
block, and a host write into the cookie, input or output buffer while a command runs. -/
def Obligations.HostDutiesBrokenStop : Prop :=
  (∀ (s : State) (addr v : Word) (width : Nat),
    width ≠ 4 ∨ (addr - s.params.coreBase).toNat % 4 ≠ 0 ∨ 256 ≤ (addr - s.params.coreBase).toNat →
    hostStep (.writeReg addr width v) s = .fault .hostAccess ∧ hostStep (.readReg addr width) s = .fault .hostAccess) ∧
  ∀ (s : State) (a : Word) (b : Byte), s.port.busy = true →
    (a - s.port.cookieAddr).toNat < s.port.cookieLen.toNat ∨ (a - s.port.inAddr).toNat < s.port.inLen.toNat ∨
      (a - s.port.outAddr).toNat < s.port.outCap.toNat →
    hostStep (.writeMem a b) s = .fault .hostWroteBuffer

/-- R36, R310, R311: the reset input, at any time, gives every register the spec gives a value its reset value: the host port
and the configuration 0 throughout, the cursor 0, the Rice registers 0, the parser in HALT with its registers 0, `irq` low,
nothing running; and it writes no host memory. -/
def Obligations.ResetInput : Prop :=
  ∀ s : State, ∃ t, hostStep .reset s = .next t ∧
    t.port =
      { cmd := 0#32, busy := false, done := false, err := 0#4, irqEn := false, cookieAddr := 0#32,
        cookieLen := 0#32, inAddr := 0#32, inLen := 0#32, outAddr := 0#32, outCap := 0#32, outLen := 0#32,
        chmap := 0#32, dataIn := 0#32, dataOut := 0#32 } ∧
    t.cfg =
      { maxSamples := 0#32, bits := 0#8, histMult := 0#8, initHist := 0#8, kmod := 0#8, numCh := 0#8,
        configured := false } ∧
    t.cursor = ⟨0#32, 0#3⟩ ∧ t.rice = ⟨0#32, 0#32, 0#32⟩ ∧
    t.parser =
      { state := .halt, ci := 0, hwm := 0#32, n := 0#32, ub := 0#2, esc := false, hasSize := false,
        mixShift := 0#8, mixWeight := 0#8 } ∧
    (∀ c : Ch, (t.ch c).mode = 0#4 ∧ (t.ch c).quant = 0#4 ∧ (t.ch c).ricemod = 0#3 ∧ (t.ch c).ncoef = 0#5) ∧
    t.irq = false ∧ t.stage = .idle ∧ t.mem = s.mem ∧ t.params = s.params

/-! ### Errors -/

/-- R284: a command that raises an error ends with `ERR` the code of R280, `BUSY` 0, `DONE` 1 and, for a DECODE, `OUT_LEN` 0;
every other host register, the configuration, host memory, the cursor and `DATA_OUT` are as the detecting step left them,
and the parser is in HALT. Here a DECODE is a command word with OP 1, also one with a reserved bit set that is only a
`HostContract` error: that reading of R284 is the model's (log 9, DEDUCED), as are the free values (log 4, log 13). -/
def Obligations.ErrorEndsCommand : Prop :=
  ∀ (s : State) (e : ErrKind),
    (s.raiseError e).port =
      { s.port with
        busy := false, done := true
        err := (match e with
          | .invalidConfig => 1#4 | .unsupportedElement => 2#4 | .malformedStream => 3#4
          | .bufferOverrun => 4#4 | .hostContract => 5#4)
        outLen := if s.port.cmd.toNat % 16 = 1 then 0#32 else s.port.outLen } ∧
    (s.raiseError e).cfg = s.cfg ∧ (s.raiseError e).mem = s.mem ∧ (s.raiseError e).cursor = s.cursor ∧
    (s.raiseError e).params = s.params ∧ (s.raiseError e).host = s.host ∧ (s.raiseError e).stage = .idle ∧
    (s.raiseError e).parser.state = .halt ∧ CoefsLegal (s.raiseError e).ch0.coef ∧
    CoefsLegal (s.raiseError e).ch1.coef

/-- R283: a command word with a reserved bit set, a reserved opcode, or an A or B outside its column of R82 raises
`HostContract` and has no other effect. -/
def Obligations.BadCommandWordsRaise : Prop :=
  ∀ (s : State) (a b : BitVec 6) (w : BitVec 32),
    exec (.reservedOp w) s = .next (s.raiseError .hostContract) ∧
    (a ≠ 0#6 ∨ b ≠ 0#6 →
      exec (.configure a b) s = .next (s.raiseError .hostContract) ∧
      exec (.decode a b) s = .next (s.raiseError .hostContract) ∧
      exec (.brSeek a b) s = .next (s.raiseError .hostContract) ∧
      exec (.brReadBit a b) s = .next (s.raiseError .hostContract) ∧
      exec (.lzc a b) s = .next (s.raiseError .hostContract)) ∧
    (32 < a.toNat ∨ b ≠ 0#6 →
      exec (.brRead a b) s = .next (s.raiseError .hostContract) ∧
      exec (.brUnread a b) s = .next (s.raiseError .hostContract)) ∧
    (a = 0#6 ∨ 32 < a.toNat ∨ 31 < b.toNat → exec (.riceValue a b) s = .next (s.raiseError .hostContract))

/-! ### CONFIGURE and DECODE -/

/-- R231, R232: a legal cookie is loaded. The cookie bytes are b 0 … b 9, ms the big-endian `max_samples_per_frame`. -/
def Obligations.ConfigureLoadsCookie : Prop :=
  ∀ (s : State) (b : Nat → Byte),
    let ms := (b 0).toNat * 2 ^ 24 + (b 1).toNat * 2 ^ 16 + (b 2).toNat * 2 ^ 8 + (b 3).toNat
    12 ≤ s.port.cookieLen.toNat → (∀ j < 10, s.mem.read (s.port.cookieAddr + BitVec.ofNat 32 j) = some (b j)) →
    1 ≤ ms → ms ≤ 16364 → b 4 = 0#8 → (b 5).toNat ∈ [16, 20, 24, 32] → 1 ≤ (b 9).toNat → (b 9).toNat ≤ 8 →
    exec (.configure 0#6 0#6) s = .next
      { s with
        cfg := { maxSamples := BitVec.ofNat 32 ms, bits := b 5, histMult := b 6, initHist := b 7, kmod := b 8,
                 numCh := b 9, configured := true }
        ch0 := { s.ch0 with res := [], smp := [], low := [] }
        ch1 := { s.ch1 with res := [], smp := [], low := [] }
        port := { s.port with busy := false, done := true, err := 0#4 }
        stage := .idle }

/-- R231, R233, R281: a cookie shorter than 12 bytes, or with a field out of range, clears the configuration and raises
`InvalidConfig`. -/
def Obligations.ConfigureRejectsCookie : Prop :=
  ∀ (s : State) (b : Nat → Byte),
    let ms := (b 0).toNat * 2 ^ 24 + (b 1).toNat * 2 ^ 16 + (b 2).toNat * 2 ^ 8 + (b 3).toNat
    s.port.cookieLen.toNat < 12 ∨
      ((∀ j < 10, s.mem.read (s.port.cookieAddr + BitVec.ofNat 32 j) = some (b j)) ∧
        (ms = 0 ∨ 16364 < ms ∨ b 4 ≠ 0#8 ∨ (b 5).toNat ∉ [16, 20, 24, 32] ∨ b 9 = 0#8 ∨ 8 < (b 9).toNat)) →
    ∃ t, exec (.configure 0#6 0#6) s = .next t ∧
      t.cfg =
        { maxSamples := 0#32, bits := 0#8, histMult := 0#8, initHist := 0#8, kmod := 0#8, numCh := 0#8,
          configured := false } ∧
      t.port.err = 1#4 ∧ t.port.busy = false ∧ t.port.done = true ∧ t.mem = s.mem ∧ t.cursor = s.cursor ∧
      t.port.dataOut = s.port.dataOut

/-- R234 to R236: a DECODE on a configured core with a large enough output buffer and a legal channel map starts the frame: cursor, `CI`, `HWM` and `OUT_LEN` 0, the parser in FETCH_TAG; nothing else changes. -/
def Obligations.DecodeStartsFrame : Prop :=
  ∀ s : State, s.cfg.Legal → s.cfg.configured = true →
    s.cfg.maxSamples.toNat * s.cfg.numCh.toNat * bytesPerSample s.cfg.bits ≤ s.port.outCap.toNat →
    (∀ c < s.cfg.numCh.toNat, s.port.chmap.toNat / 16 ^ c % 16 < s.cfg.numCh.toNat) →
    exec (.decode 0#6 0#6) s = .next
      { s with
        cursor := ⟨0#32, 0#3⟩
        parser := { s.parser with ci := 0, hwm := 0#32, state := .fetchTag }
        port := { s.port with outLen := 0#32 }
        stage := .element }

/-- R235, R236: a DECODE that is not configured, whose output buffer is smaller than `FRAME_BYTES_MAX`, or whose channel map has
an entry c < C that is not below C, raises `HostContract` and has no other effect. R73, R316: where two of the cookie, input
and output buffers have an address in common, no command starts: the host's write of any word to `CMD` has no step, and where
a command word is due all the same, the core has none. That the start of a command, of whatever opcode, is where an overlap
is found, the registers counting as they stand then, is the model's reading (log 8, DEDUCED). The last two clauses say what
`State.decodeReady` and `State.buffersOverlap` are. -/
def Obligations.DecodePreconditions : Prop :=
  (∀ s : State, s.cfg.Legal →
    (s.cfg.configured = false ∨
      s.port.outCap.toNat < s.cfg.maxSamples.toNat * s.cfg.numCh.toNat * bytesPerSample s.cfg.bits ∨
      ∃ c < s.cfg.numCh.toNat, s.cfg.numCh.toNat ≤ s.port.chmap.toNat / 16 ^ c % 16) →
    exec (.decode 0#6 0#6) s = .next (s.raiseError .hostContract)) ∧
  (∀ (s : State) (v : Word), s.port.busy = false → s.buffersOverlap = true →
    hostStep (.writeReg s.params.coreBase 4 v) s = .fault .buffersOverlap) ∧
  (∀ (s : State) (rest : List HostOp), s.turn = .core rest → s.stage = .command → s.buffersOverlap = true →
    step s = .fault .buffersOverlap) ∧
  (∀ s : State, s.cfg.Legal →
    (s.decodeReady = true ↔ s.cfg.configured = true ∧
      s.cfg.maxSamples.toNat * s.cfg.numCh.toNat * bytesPerSample s.cfg.bits ≤ s.port.outCap.toNat ∧
      ∀ c < s.cfg.numCh.toNat, s.port.chmap.toNat / 16 ^ c % 16 < s.cfg.numCh.toNat)) ∧
  ∀ s : State,
    let cookie : Word → Prop := fun a => (a - s.port.cookieAddr).toNat < s.port.cookieLen.toNat
    let input : Word → Prop := fun a => (a - s.port.inAddr).toNat < s.port.inLen.toNat
    let output : Word → Prop := fun a => (a - s.port.outAddr).toNat < s.port.outCap.toNat
    s.buffersOverlap = true ↔ ∃ a, input a ∧ output a ∨ cookie a ∧ input a ∨ cookie a ∧ output a

/-- R259(b): a DECODE of the one-byte frame whose first three bits are the end tag ends with no error and no output. That it
takes two steps of the core, one for the command word and one for the end tag, is the model's cut (log 1, DESIGN CHOICE);
R320 leaves the number open. -/
def Obligations.LoneEndDecodes : Prop :=
  ∀ (s : State) (b : Byte), s.stage = .command → s.host = [] → s.port.cmd = 1#32 → s.decodeReady = true →
    s.buffersOverlap = false → s.port.inLen = 1#32 → s.mem.read s.port.inAddr = some b → b.toNat / 32 = 7 →
    ∃ t, core.run 2 s = .next t ∧ t.port.err = 0#4 ∧ t.port.outLen = 0#32 ∧ t.port.busy = false ∧
      t.port.done = true ∧ t.mem = s.mem ∧ t.pos = 8

/-! ### The BitReader, its commands, and LZC -/

/-- R126: n bits inside the input are read as a big-endian number, and the cursor moves by n. R128: `read_bit()` gives the bit
at the cursor and moves by one. -/
def Obligations.ReadBitsValue : Prop :=
  (∀ (s : State) (n : Nat), n ≤ 32 → s.CanRead n →
    readBits n s = .ok (BitVec.ofNat 32 (∑ t ∈ Finset.range n, (s.streamBit (s.pos + t)).toNat * 2 ^ (n - 1 - t)))
      (s.cursorAt (s.pos + n))) ∧
  ∀ s : State, s.CanRead 1 → readBit s = .ok (s.streamBit s.pos) (s.cursorAt (s.pos + 1))

/-- R124, R125, R127, R285: a read past the end raises `MalformedStream` and leaves the cursor where the failing 16-bit part of
the read moved it. -/
def Obligations.ReadPastTheEnd : Prop :=
  ∀ (s : State) (n : Nat), n ≤ 32 → s.InputReadable → s.pos ≤ s.endPos → s.endPos < 2 ^ 34 → s.endPos < s.pos + n →
    readBits n s = .raised .malformedStream
      (s.cursorAt (if 16 < n ∧ s.endPos < s.pos + (n - 16) then s.pos + (n - 16) else s.pos + n))

/-- R136: `unread_bits(n)` and then `read_bits(n)` gives the same value and the same cursor again. -/
def Obligations.RewindLaw : Prop :=
  ∀ (s t : State) (n : Nat) (v : Word), n ≤ 32 → s.CanRead n → readBits n s = .ok v t →
    ((unreadBits n t).bind fun _ u => readBits n u) = .ok v t

/-- R130: `advance(n)` moves the cursor by n bits and `align()` to the next byte boundary; past the end they raise
`MalformedStream` with the cursor there. (Positions below 2^34, the range of the signed `BYTE_IDX`, log 10.) -/
def Obligations.AdvanceAndAlign : Prop :=
  ∀ (s : State) (n : Nat),
    (s.pos + n ≤ s.endPos → s.pos + n < 2 ^ 34 → advance n s = .ok () (s.cursorAt (s.pos + n))) ∧
    (s.endPos < s.pos + n → s.pos + n < 2 ^ 34 →
      advance n s = .raised .malformedStream (s.cursorAt (s.pos + n))) ∧
    (s.pos ≤ s.endPos → s.pos + 7 < 2 ^ 34 → align s = .ok () (s.cursorAt ((s.pos + 7) / 8 * 8))) ∧
    (s.endPos < s.pos → s.pos + 7 < 2 ^ 34 → align s = .raised .malformedStream (s.cursorAt ((s.pos + 7) / 8 * 8)))

/-- R131: BR_SEEK moves the cursor to bit `DATA_IN`; beyond `8*IN_LEN`, `IN_LEN` being unsigned (log 17), it raises `MalformedStream` with the cursor there; with a
non-zero A or B it raises `HostContract`. -/
def Obligations.BrSeekMovesCursor : Prop :=
  ∀ (s : State) (a b : BitVec 6), exec (.brSeek a b) s =
    if a ≠ 0#6 ∨ b ≠ 0#6 then .next (s.raiseError .hostContract)
    else if s.port.dataIn.toNat ≤ 8 * s.port.inLen.toNat then .next (s.cursorAt s.port.dataIn.toNat).endCommand
    else .next ((s.cursorAt s.port.dataIn.toNat).raiseError .malformedStream)

/-- R132, R133: BR_READ of n bits and BR_READ_BIT put the bits at the cursor in `DATA_OUT` and move the cursor past them; a read
past the end raises `MalformedStream` and leaves `DATA_OUT`; an A or B outside its column raises `HostContract`. -/
def Obligations.BrReadReadsBits : Prop :=
  ∀ (s : State) (a b : BitVec 6),
    (32 < a.toNat ∨ b ≠ 0#6 → exec (.brRead a b) s = .next (s.raiseError .hostContract)) ∧
    (a.toNat ≤ 32 → s.CanRead a.toNat →
      exec (.brRead a 0#6) s = .next
        ((s.cursorAt (s.pos + a.toNat)).setDataOut (s.streamWord s.pos a.toNat)).endCommand) ∧
    (a.toNat ≤ 32 → s.InputReadable → s.pos ≤ s.endPos → s.endPos < 2 ^ 34 → s.endPos < s.pos + a.toNat →
      ∃ p, s.endPos < p ∧ p ≤ s.pos + a.toNat ∧
        exec (.brRead a 0#6) s = .next ((s.cursorAt p).raiseError .malformedStream)) ∧
    (a ≠ 0#6 ∨ b ≠ 0#6 → exec (.brReadBit a b) s = .next (s.raiseError .hostContract)) ∧
    (s.CanRead 1 →
      exec (.brReadBit 0#6 0#6) s = .next
        ((s.cursorAt (s.pos + 1)).setDataOut (if s.streamBit s.pos then 1#32 else 0#32)).endCommand) ∧
    (s.pos = s.endPos → s.endPos < 2 ^ 34 →
      exec (.brReadBit 0#6 0#6) s = .next ((s.cursorAt (s.pos + 1)).raiseError .malformedStream))

/-- R134: BR_UNREAD moves the cursor back by A bits; below bit 0 it raises `MalformedStream` and leaves the cursor; an A or B
outside its column raises `HostContract`. That a `BYTE_IDX` of 2^31 or more is below bit 0 is the model's reading of the
signed register of R28 (log 10, DEDUCED). -/
def Obligations.BrUnreadMovesBack : Prop :=
  ∀ (s : State) (a b : BitVec 6), exec (.brUnread a b) s =
    if 32 < a.toNat ∨ b ≠ 0#6 then .next (s.raiseError .hostContract)
    else if a.toNat ≤ s.pos ∧ s.cursor.byteIdx.toNat < 2 ^ 31 then .next (s.cursorAt (s.pos - a.toNat)).endCommand
    else .next (s.raiseError .malformedStream)

/-- R142, R143: `lz` of a word is 32 for 0, else 31 less the position of the highest set bit, and LZC puts it in `DATA_OUT` for
`DATA_IN`; with a non-zero A or B it raises `HostContract`. -/
def Obligations.LzcCountsLeadingZeros : Prop :=
  (∀ v : Word, lz v = if v = 0#32 then 32 else 31 - Nat.log2 v.toNat) ∧
  ∀ (s : State) (a b : BitVec 6), exec (.lzc a b) s =
    if a ≠ 0#6 ∨ b ≠ 0#6 then .next (s.raiseError .hostContract)
    else .next (s.setDataOut (if s.port.dataIn = 0#32 then 32#32
      else BitVec.ofNat 32 (31 - Nat.log2 s.port.dataIn.toNat))).endCommand

/-- The frame of the unit-test commands: they write no configuration, no host memory and nothing else but `DATA_OUT`, the cursor
and what the end of a command writes; the Rice, parser and channel registers change only by an error. -/
def Obligations.UnitTestFrame : Prop :=
  ∀ (i : Instr) (s t : State) (a b : BitVec 6),
    i ∈ [.brSeek a b, .brRead a b, .brReadBit a b, .brUnread a b, .lzc a b, .riceValue a b] → exec i s = .next t →
    (∀ x : Word, t.mem.read x = s.mem.read x) ∧ t.cfg = s.cfg ∧ t.params = s.params ∧ t.stage = .idle ∧
    t.port = { s.port with busy := false, done := true, err := t.port.err, dataOut := t.port.dataOut,
                           outLen := if t.port.err ≠ 0#4 ∧ s.op = 1#4 then 0#32 else s.port.outLen } ∧
    (t.port.err = 0#4 → t.rice = s.rice ∧ t.parser = s.parser ∧ t.ch0 = s.ch0 ∧ t.ch1 = s.ch1) ∧
    (i = .lzc a b → t.cursor = s.cursor)

/-! ### The Rice decoder -/

/-- R153 to R155: RICE_VALUE on a codeword of x ones, a zero and a k-bit suffix e (A = w, B = k): the value, and the cursor after
the codeword, one bit less when e is 0 or 1. For k = 1 there is no suffix. R159, R285: an input that ends in the prefix or
in the suffix raises `MalformedStream` with the cursor past the end and `DATA_OUT` unchanged. (The end lies below bit 2^34,
log 10.) -/
def Obligations.RiceValueUnary : Prop :=
  ∀ (s : State) (w k : BitVec 6) (x : Nat), 1 ≤ w.toNat → w.toNat ≤ 32 → k.toNat ≤ 31 → x ≤ 8 →
    (∀ t < x, s.streamBit (s.pos + t) = true) →
    (s.CanRead (x + 1 + if k = 1#6 then 0 else k.toNat) → s.streamBit (s.pos + x) = false →
      let e := s.streamNat (s.pos + x + 1) k.toNat
      let base : Word := BitVec.ofNat 32 x * (((1#32 <<< k.toNat) - 1#32) &&& s.port.dataIn)
      (k = 1#6 →
        exec (.riceValue w k) s = .next ((s.cursorAt (s.pos + x + 1)).setDataOut (BitVec.ofNat 32 x)).endCommand) ∧
      (k ≠ 1#6 → 1 < e →
        exec (.riceValue w k) s = .next ((s.cursorAt (s.pos + x + 1 + k.toNat)).setDataOut
          (base + BitVec.ofNat 32 (e - 1))).endCommand) ∧
      (k ≠ 1#6 → e ≤ 1 →
        exec (.riceValue w k) s = .next ((s.cursorAt (s.pos + x + k.toNat)).setDataOut base).endCommand)) ∧
    (s.InputReadable → s.endPos < 2 ^ 34 →
      (s.pos + x = s.endPos →
        exec (.riceValue w k) s = .next ((s.cursorAt (s.endPos + 1)).raiseError .malformedStream) ∧
          ((s.cursorAt (s.endPos + 1)).raiseError .malformedStream).port.dataOut = s.port.dataOut) ∧
      (s.pos + x < s.endPos → s.streamBit (s.pos + x) = false → k ≠ 1#6 → s.endPos < s.pos + x + 1 + k.toNat →
        ∃ p, s.endPos < p ∧ p ≤ s.pos + x + 1 + k.toNat ∧
          exec (.riceValue w k) s = .next ((s.cursorAt p).raiseError .malformedStream) ∧
          ((s.cursorAt p).raiseError .malformedStream).port.dataOut = s.port.dataOut))

/-- R153, R156: RICE_VALUE on nine ones: the w bits after them, verbatim. R159, R285: an input that ends in those w bits raises
`MalformedStream` with the cursor past the end and `DATA_OUT` unchanged. (The end lies below bit 2^34, log 10.) -/
def Obligations.RiceValueEscape : Prop :=
  ∀ (s : State) (w k : BitVec 6), 1 ≤ w.toNat → w.toNat ≤ 32 → k.toNat ≤ 31 →
    (∀ t < 9, s.streamBit (s.pos + t) = true) →
    (s.CanRead (9 + w.toNat) →
      exec (.riceValue w k) s = .next ((s.cursorAt (s.pos + 9 + w.toNat)).setDataOut
        (s.streamWord (s.pos + 9) w.toNat)).endCommand) ∧
    (s.InputReadable → s.endPos < 2 ^ 34 → s.pos + 9 ≤ s.endPos → s.endPos < s.pos + 9 + w.toNat →
      ∃ p, s.endPos < p ∧ p ≤ s.pos + 9 + w.toNat ∧
        exec (.riceValue w k) s = .next ((s.cursorAt p).raiseError .malformedStream) ∧
        ((s.cursorAt p).raiseError .malformedStream).port.dataOut = s.port.dataOut)

/-- R152: `K` is the smaller of `31 - lz((HISTORY >>a 9) + 3)` and `CFG_KMOD`, for every history. R166: for a history that is not
negative it is in 0..30, and 0 only when `CFG_KMOD` is. R162: the parameter of a zero run for a history of 0 to 127; for a
negative history it is negative. -/
def Obligations.RiceParameters : Prop :=
  (∀ (h : Word) (kmod : BitVec 8),
    (riceK h (kmod.setWidth 32)).toInt = min (31 - (lz (h.sshiftRight 9 + 3#32) : Int)) kmod.toNat ∧
    (h.toNat < 2 ^ 31 →
      (riceK h (kmod.setWidth 32)).toNat ≤ 30 ∧ (riceK h (kmod.setWidth 32) = 0#32 → kmod = 0#8))) ∧
  (∀ h < 128, (zeroRunK (BitVec.ofNat 32 h)).toNat =
    if h = 0 then 8 else if h = 1 then 7 else if h ≤ 3 then 6 else if h ≤ 7 then 5 else if h ≤ 15 then 4
    else if h ≤ 31 then 3 else if h ≤ 47 then 2 else if h ≤ 63 then 3 else if h ≤ 111 then 2 else 3) ∧
  ∀ h : Word, h.toInt < 0 → (zeroRunK h).toInt < 0

/-- R157: the sign mapping on values below 2^31 - 1. R158: the history after a value, as integers when nothing wraps; it is
clamped to 0xFFFF for a value above 0xFFFF, and it is not negative. R165(c): where a product wraps the history is the wrapped
32-bit value. R153, R155: the value of a codeword read with parameter k under a mask. -/
def Obligations.RiceArithmetic : Prop :=
  (∀ d : Word, d.toNat < 2 ^ 31 - 1 →
    (unzigzag d).toInt = if d.toNat % 2 = 1 then -((d.toNat + 1) / 2 : Int) else ((d.toNat + 1) / 2 : Int)) ∧
  (∀ (h d : Word) (rm : BitVec 3) (hm : BitVec 8),
    let pb := rm.toNat * hm.toNat / 4
    (h.toNat * pb < 2 ^ 31 → h.toNat + d.toNat * pb < 2 ^ 31 → h.toNat < 2 ^ 31 → d.toNat < 2 ^ 31 →
      (historyAfter h d (ricePb rm hm)).toNat =
        if 0xFFFF < d.toNat then 0xFFFF else h.toNat + d.toNat * pb - h.toNat * pb / 512) ∧
    historyAfter h d (ricePb rm hm) =
      if 0xFFFF < d.toInt then 0xFFFF#32
      else h + d * BitVec.ofNat 32 pb - (h * BitVec.ofNat 32 pb).sshiftRight 9) ∧
  ∀ (k : Nat) (mask v : Word) (x : BitVec 4) (e : BitVec 32),
    codewordValue k mask (.escape v) = v ∧
    codewordValue 1 mask (.unary x e) = BitVec.ofNat 32 x.toNat ∧
    (k ≠ 1 → codewordValue k mask (.unary x e) =
      BitVec.ofNat 32 x.toNat * (((1#32 <<< k) - 1#32) &&& mask) + BitVec.ofNat 32 (e.toNat - 1))

/-- One value stored (R160): with d the codeword's value plus `SIGN_MOD`, the sign-mapped value is appended to the residuals of
the channel being decoded, `HISTORY` is updated, `SIGN_MOD` is 0, and `K` is the parameter the codeword was read with. -/
def Sys2Proof.Machine.State.withResidual (s : State) (c : Codeword) : State :=
  let k := riceK s.rice.history (s.cfg.kmod.setWidth 32)
  let d := codewordValue k.toNat 0xFFFFFFFF#32 c + s.rice.signMod
  { s.setCh s.chan { s.ch s.chan with res := (s.ch s.chan).res ++ [unzigzag d] } with
    rice := { history := historyAfter s.rice.history d (ricePb (s.ch s.chan).ricemod s.cfg.histMult)
              signMod := 0#32
              k := k } }

/-- A run of n zeros stored (R163): appended to the residuals of the channel being decoded, `HISTORY` 0 and `SIGN_MOD` 1. -/
def Sys2Proof.Machine.State.withZeros (s : State) (n : Nat) : State :=
  { s.setCh s.chan { s.ch s.chan with res := (s.ch s.chan).res ++ List.replicate n 0#32 } with
    rice := { s.rice with history := 0#32, signMod := 1#32 } }

/-- The block length of a zero run (R163): the codeword's value under the parameter of R162 and the mask
`(1 << CFG_KMOD) - 1`. -/
def Sys2Proof.Machine.State.blockLength (s : State) (c : Codeword) : Word :=
  codewordValue (zeroRunK s.rice.history).toNat ((1#32 <<< s.cfg.kmod.toNat) - 1#32) c

/-- R160, R161: RICE_UNARY and RICE_ESCAPE, when more than one value of the channel remains: the value is stored, and a zero run
comes next when `HISTORY` is below 128, else the next value; nothing else changes. That a codeword is a step of its own is the
model's cut (log 1, DESIGN CHOICE). -/
def Obligations.ResidualStored : Prop :=
  ∀ (s : State) (c : Codeword), (s.ch s.chan).res.length + 1 < s.parser.n.toNat →
    exec (residualOf c) s = .next
      { s.withResidual c with
        stage := if (s.withResidual c).rice.history.slt 128#32 then .zeroRun else .residual }

/-- R163: ZERO_RUN: bs zeros are appended, `HISTORY` is 0 and `SIGN_MOD` 1 for the next value; a run past the element's N values
raises `BufferOverrun`. Here values still remain after the run, and bs is at most 0xFFFF, as every run of R163 is. (A run
that ends at the N values is in LastResidualEndsElement and FirstChannelThenSecond.) That a zero run is a step of its own,
which leaves the machine about to read the next value, is the model's cut (log 1, DESIGN CHOICE). -/
def Obligations.ZeroRunStored : Prop :=
  ∀ (s : State) (c : Codeword),
    let bs := (s.blockLength c).toNat
    (bs ≤ 0xFFFF → (s.ch s.chan).res.length + bs < s.parser.n.toNat →
      exec (.zeroRun c) s = .next { s.withZeros bs with stage := .residual }) ∧
    (1 ≤ bs → bs < 2 ^ 31 → s.parser.n.toNat < (s.ch s.chan).res.length + bs →
      exec (.zeroRun c) s = .next (s.raiseError .bufferOverrun))

/-- The codeword i completes the residuals of the channel being decoded, and s' is the state with its values stored (R160, R163):
one residual, or a zero run that ends at the last one. -/
def Sys2Proof.Machine.CompletesChannel (s : State) (i : Instr) (s' : State) : Prop :=
  (∃ c, i = residualOf c ∧ (s.ch s.chan).res.length + 1 = s.parser.n.toNat ∧ s' = s.withResidual c) ∨
  ∃ c, i = .zeroRun c ∧ (s.blockLength c).toNat ≤ 0xFFFF ∧
    (s.ch s.chan).res.length + (s.blockLength c).toNat = s.parser.n.toNat ∧ s' = s.withZeros (s.blockLength c).toNat

/-- The prediction of one channel from its residuals, with cb output bits (R191, R247): with `MODE` 0 one pass with the
coefficient table; with `MODE` not 0 first a pass with 31 coefficients and quantization 0, in place, and then the pass with
the table on its result. None where a pass raises. -/
def Sys2Proof.Machine.ChanRegs.predicted (cb : Nat) (r : ChanRegs) : Option ChanRegs :=
  let second (res : List Word) : Option ChanRegs :=
    (fir cb r.ncoef.toNat r.quant.toNat res r.coef).map fun p => { r with res := res, smp := p.1, coef := p.2 }
  if r.mode = 0#4 then second r.res else (fir cb 31 0 r.res r.coef).bind fun p => second p.1

/-- R247, R191, R238, R256: the codeword that completes the last channel (the one channel, or channel 1 of a CPE) is followed by the
prediction of that channel with chanBits output bits and by the end of the element: its output is written (`finishElement`,
whose bytes OutputReadsBack gives), `CI` grows by its channels and the next tag is due. If the predictor raises, the command
ends in `MalformedStream`. That the codeword's own step does all this is the model's cut (log 1, DESIGN CHOICE). -/
def Obligations.LastResidualEndsElement : Prop :=
  ∀ (s : State) (i : Instr) (s' : State), CompletesChannel s i s' → (s.chan = .c1 ∨ s.nch = 1) → s.mem.unserved = [] →
    match (s'.ch s.chan).predicted s.codewordWidth with
    | none => exec i s = .next (s'.raiseError .malformedStream)
    | some r => ∃ m, (s'.setCh s.chan r).mem.writeAll (s'.setCh s.chan r).elementBytes = some m ∧
        let t := (((s'.setCh s.chan r).setMem m).setParser
          { s.parser with ci := s.parser.ci + s.nch, state := .fetchTag }).goto .element .c0
        finishElement (s'.setCh s.chan r) = .ok () t ∧ exec i s = .next t

/-- R247, R191, R160: the codeword that completes channel 0 of a CPE is followed by the prediction of channel 0 with chanBits output
bits and by the start of the run of channel 1, with `HISTORY` = `CFG_INIT_HIST`, `SIGN_MOD` = 0 and no residual yet. If the
predictor raises, the command ends in `MalformedStream`. That the codeword's own step does all this is the model's cut
(log 1, DESIGN CHOICE). -/
def Obligations.FirstChannelThenSecond : Prop :=
  ∀ (s : State) (i : Instr) (s' : State), CompletesChannel s i s' → s.chan = .c0 → s.parser.state = .cpe →
    s.parser.n ≠ 0#32 →
    match s'.ch0.predicted s.codewordWidth with
    | none => exec i s = .next (s'.raiseError .malformedStream)
    | some r => exec i s = .next
        { s' with
          ch0 := r
          ch1 := { s'.ch1 with res := [] }
          rice := { s'.rice with history := s.cfg.initHist.setWidth 32, signMod := 0#32 }
          stage := .residual
          chan := .c1 }

/-! ### The predictor -/

/-- R182, R185, R190: with n = 0 the residuals are the samples; with n = 31 each sample is the one before it plus the residual,
sign-extended to cb bits, and no coefficient changes; q is not used in either case. With 1 ≤ n ≤ 30 and more than n + 1
residuals, q = 0 raises. -/
def Obligations.FirSpecialCases : Prop :=
  ∀ (cb n q : Nat) (src coef : List Word),
    fir cb 0 q src coef = some (src, coef) ∧
    (∃ dst, fir cb 31 q src coef = some (dst, coef) ∧ dst.length = src.length ∧ dst[0]? = src[0]? ∧
      ∀ (i : Nat) (p x : Word), dst[i]? = some p → src[i + 1]? = some x → dst[i + 1]? = some (sext cb (p + x))) ∧
    (1 ≤ n → n ≤ 30 → n + 2 ≤ src.length → fir cb n 0 src coef = none) ∧
    (1 ≤ n → n ≤ 30 → src.length ≤ n + 1 → ∃ dst, fir cb n q src coef = some (dst, coef) ∧
      dst.length = src.length ∧ dst[0]? = src[0]? ∧
      ∀ (i : Nat) (p x : Word), dst[i]? = some p → src[i + 1]? = some x → dst[i + 1]? = some (sext cb (p + x)))

/-- R187, R189: every sample after the first is a cb-bit number unless n = 0, and the coefficients stay in the signed 16-bit
range. R11: `sext_n(v)` is the number that bits n-1..0 of v stand for in two's complement. -/
def Obligations.FirRanges : Prop :=
  (∀ (cb n q : Nat) (src coef dst coef' : List Word), fir cb n q src coef = some (dst, coef') →
    dst.length = src.length ∧ (CoefsLegal coef → CoefsLegal coef') ∧
    (1 ≤ n → 1 ≤ cb → cb ≤ 32 → ∀ (i : Nat) (v : Word), 1 ≤ i → dst[i]? = some v →
      -(2 ^ (cb - 1)) ≤ v.toInt ∧ v.toInt < 2 ^ (cb - 1))) ∧
  ∀ (n : Nat) (v : Word), 1 ≤ n → n ≤ 32 →
    (sext n v).toInt = if v.toNat % 2 ^ n < 2 ^ (n - 1) then (v.toNat % 2 ^ n : Int) else (v.toNat % 2 ^ n : Int) - 2 ^ n

/-- The walk of R188 in the words of the rule, by indexes: j + 1 indexes are left, from j down. -/
def Sys2Proof.Machine.adaptIndexed (neg : Bool) (dst : List Word) (i n q : Nat) (top : Word) :
    Nat → List Word → Word → Option (List Word)
  | 0, coef, _ => some coef
  | j + 1, coef, e =>
    if (if neg then e.slt 0#32 else (0#32).slt e) then
      let v := top - dst.getD (i - 1 - j) 0#32
      let sg := if neg then -(signOf v) else signOf v
      let c' := coef.getD j 0#32 - sg
      if coefInRange c' then
        adaptIndexed neg dst i n q top j (coef.set j c')
          (e - (v * sg).sshiftRight q * BitVec.ofNat 32 (n - j))
      else none
    else some coef

/-- The general loop of R181 by indexes: m samples are left, from index i on. -/
def Sys2Proof.Machine.generalIndexed (cb n q : Nat) (src : List Word) :
    Nat → Nat → List Word → List Word → Option (List Word × List Word)
  | 0, _, dst, coef => some (dst, coef)
  | m + 1, i, dst, coef =>
    if q = 0 then none
    else
      let top := dst.getD (i - n - 1) 0#32
      let sum := (List.range n).foldl
        (fun acc j => acc + (dst.getD (i - 1 - j) 0#32 - top) * coef.getD j 0#32) 0#32
      let e := src.getD i 0#32
      let dst' := dst.set i (sext cb ((sum + (1#32 <<< (q - 1))).sshiftRight q + top + e))
      let adapted :=
        if (0#32).slt e then adaptIndexed false dst' i n q top n coef e
        else if e.slt 0#32 then adaptIndexed true dst' i n q top n coef e
        else some coef
      match adapted with
      | none => none
      | some coef' => generalIndexed cb n q src m (i + 1) dst' coef'

/-- The samples 1 .. m by `dst[i] <- sext_cb(dst[i-1] + src[i])` (R184, R185), from index i on. -/
def Sys2Proof.Machine.warmIndexed (cb : Nat) (src : List Word) : Nat → Nat → List Word → List Word
  | 0, _, dst => dst
  | m + 1, i, dst =>
    warmIndexed cb src m (i + 1) (dst.set i (sext cb (dst.getD (i - 1) 0#32 + src.getD i 0#32)))

/-- `fir(src, dst, N, cb, coef, n, q)` as R181 writes it, over arrays read and written by index. -/
def Sys2Proof.Machine.firIndexed (cb n q : Nat) (src dst coef : List Word) : Option (List Word × List Word) :=
  if src.length = 0 then some (dst, coef)
  else
    let dst := dst.set 0 (src.getD 0 0#32)
    if n = 0 then some ((List.range src.length).foldl (fun d i => d.set i (src.getD i 0#32)) dst, coef)
    else if n = 31 then some (warmIndexed cb src (src.length - 1) 1 dst, coef)
    else
      generalIndexed cb n q src (src.length - (n + 1)) (n + 1)
        (warmIndexed cb src (min n (src.length - 1)) 1 dst) coef

/-- R181, R188: the predictor of the model is the algorithm of the rule, written over arrays by index, whatever the destination
array held before. R191, R247: the prediction of a channel is the one or two passes of `ChanRegs.predicted`: one with
`MODE` 0, and with any other `MODE` the first-difference pass before it. -/
def Obligations.FirIsTheIndexedAlgorithm : Prop :=
  (∀ (cb n q : Nat) (src dst coef : List Word), dst.length = src.length → coef.length = 32 → n ≤ 31 →
    fir cb n q src coef = firIndexed cb n q src dst coef) ∧
  ∀ (cb : Nat) (r : ChanRegs), reconstructChan cb r = r.predicted cb

/-! ### The unmixer and the output -/

/-- R201, R202: the unmix of a sample pair, and where its two values go: left is channel 0 of the pair, right channel 1. R211: for
16-bit output the sum may be taken modulo 2^16. R209: a mono element's one value is its sample; the low-bit values are those of
the element's channels in the same order. -/
def Obligations.UnmixFormula : Prop :=
  (∀ (w sh : BitVec 8) (a b : Word),
    (w = 0#8 → unmix w sh a b = (a, b)) ∧
    (w ≠ 0#8 → unmix w sh a b = (a - (b * w.setWidth 32).sshiftRight sh.toNat + b,
      a - (b * w.setWidth 32).sshiftRight sh.toNat)) ∧
    ((unmix w sh a b).1.setWidth 16 : BitVec 16) =
      (if w = 0#8 then a.setWidth 16 else (unmix w sh a b).2.setWidth 16 + b.setWidth 16)) ∧
  (∀ (s : State) (i : Nat) (a b : Word), s.parser.state = .cpe → s.ch0.smp[i]? = some a → s.ch1.smp[i]? = some b →
    s.channelValues i = [(unmix s.parser.mixWeight s.parser.mixShift a b).1,
      (unmix s.parser.mixWeight s.parser.mixShift a b).2]) ∧
  ∀ (s : State) (i : Nat) (a b : Word),
    (s.parser.state ≠ .cpe → s.ch0.smp[i]? = some a → s.channelValues i = [a]) ∧
    (s.ch0.low[i]? = some a → (s.parser.state ≠ .cpe → s.lowValues i = [a]) ∧
      (s.parser.state = .cpe → s.ch1.low[i]? = some b → s.lowValues i = [a, b]))

/-- R205 to R208: the bytes of a sample: the low bytes of v for 16 bits, of v times 16 for 20 bits, and for 24 and 32 bits of v,
moved up by 8*UB bits with the low 8*UB bits of the low-bit value below it when `UB` > 0; with `UB` = 0 the low-bit value,
whatever it is, does not matter. R23: `BPS` of the four depths, and `FRAME_BYTES_MAX`. R27: the entry of the channel map. -/
def Obligations.ContainerBytes : Prop :=
  (∀ (ub : BitVec 2) (v low : Word),
    leBytes 2 (containerValue 16#8 ub v low) = [v.extractLsb' 0 8, v.extractLsb' 8 8] ∧
    (let x := v * 16#32
     leBytes 3 (containerValue 20#8 ub v low) = [x.extractLsb' 0 8, x.extractLsb' 8 8, x.extractLsb' 16 8]) ∧
    (let x := if ub = 0#2 then v
       else v * BitVec.ofNat 32 (2 ^ (8 * ub.toNat)) + BitVec.ofNat 32 (low.toNat % 2 ^ (8 * ub.toNat))
     leBytes 3 (containerValue 24#8 ub v low) = [x.extractLsb' 0 8, x.extractLsb' 8 8, x.extractLsb' 16 8] ∧
      leBytes 4 (containerValue 32#8 ub v low) =
        [x.extractLsb' 0 8, x.extractLsb' 8 8, x.extractLsb' 16 8, x.extractLsb' 24 8])) ∧
  (bytesPerSample 16#8 = 2 ∧ bytesPerSample 20#8 = 3 ∧ bytesPerSample 24#8 = 3 ∧ bytesPerSample 32#8 = 4) ∧
  ∀ s : State,
    s.bps = bytesPerSample s.cfg.bits ∧
    (s.cfg.Legal → s.frameStride.toNat = s.cfg.numCh.toNat * s.bps ∧
      s.frameBytesMax.toNat = s.cfg.maxSamples.toNat * s.cfg.numCh.toNat * s.bps) ∧
    ∀ c : Nat, s.slot c = s.port.chmap.toNat / 16 ^ c % 16

/-- R204, R214: after an element ends, byte k of sample i of its channel ch stands at
`OUT_ADDR + (i*C + slot)*BPS + k`, unless the element's second channel has the same slot and wrote over it. -/
def Obligations.OutputReadsBack : Prop :=
  ∀ s t : State, s.cfg.Legal → s.decodeReady = true → s.parser.n.toNat ≤ s.cfg.maxSamples.toNat →
    s.parser.ci + s.nch ≤ s.cfg.numCh.toNat → finishElement s = .ok () t →
    ∀ (i ch k : Nat) (v low : Word), i < s.parser.n.toNat → k < s.bps → (s.channelValues i)[ch]? = some v →
      (s.lowValues i)[ch]? = some low →
      (ch = 0 → s.nch = 2 → s.slot s.parser.ci ≠ s.slot (s.parser.ci + 1)) →
      t.mem.read (s.port.outAddr + BitVec.ofNat 32 ((i * s.cfg.numCh.toNat + s.slot (s.parser.ci + ch)) * s.bps + k)) =
        some ((containerValue s.cfg.bits s.parser.ub v low).extractLsb' (8 * k) 8)

/-! ### The elements -/

/-- R251: CCE and PCE raise `UnsupportedElement`. -/
def Obligations.UnsupportedTagsRaise : Prop :=
  ∀ s : State, exec .cce s = .next (s.raiseError .unsupportedElement) ∧
    exec .pce s = .next (s.raiseError .unsupportedElement)

/-- R99, R252: GAP skips its bytes: the count, or 15 + ext - 1 when the count is 15. R100, R253: FILL aligns when its flag is
set and then skips its bytes: the count, or 255 + ext when the count is 255. Past the end of the frame both raise
`MalformedStream`. Nothing changes but the cursor and what is read next. -/
def Obligations.SkipElements : Prop :=
  (∀ (s : State) (cnt : BitVec 4) (ext : BitVec 8),
    let e := if cnt = 15#4 then some ext else none
    let p := s.pos + 8 * (if cnt = 15#4 then 15 + ext.toNat - 1 else cnt.toNat)
    s.pos ≤ s.endPos → p < 2 ^ 34 →
    exec (.gap cnt e) s =
      if p ≤ s.endPos then
        .next { (s.cursorAt p) with parser := { s.parser with state := .fetchTag }, stage := .element, chan := .c0 }
      else .next ((s.cursorAt p).raiseError .malformedStream)) ∧
  ∀ (s : State) (inst : BitVec 4) (al : Bool) (cnt ext : BitVec 8),
    let e := if cnt = 255#8 then some ext else none
    let q := if al then (s.pos + 7) / 8 * 8 else s.pos
    let p := q + 8 * (if cnt = 255#8 then 255 + ext.toNat else cnt.toNat)
    s.pos ≤ s.endPos → p < 2 ^ 34 →
    exec (.fill inst al cnt e) s =
      if p ≤ s.endPos then
        .next { (s.cursorAt p) with parser := { s.parser with state := .fetchTag }, stage := .element, chan := .c0 }
      else .next ((s.cursorAt p).raiseError .malformedStream)

/-- R254, R284: END flushes to the byte boundary. When that is the end of the frame the command ends in success with
`OUT_LEN` = `HWM` and the parser in HALT; otherwise it raises `MalformedStream` with the cursor there. -/
def Obligations.EndChecksTrailingBytes : Prop :=
  ∀ s : State,
    let q := (s.pos + 7) / 8 * 8
    s.pos ≤ s.endPos → q < 2 ^ 34 →
    exec .endElement s =
      if q = s.endPos then
        .next { (s.cursorAt q) with
          parser := { s.parser with state := .halt }
          port := { s.port with outLen := s.parser.hwm, busy := false, done := true, err := 0#4 }
          stage := .idle }
      else .next ((s.cursorAt q).raiseError .malformedStream)

/-- The three audio elements with their parser state and number of channels (R237, R238). -/
def Sys2Proof.Machine.audioForms (h : AudioHeader) : List (Instr × ParserState × Nat) :=
  [(.sce h, .sce, 1), (.lfe h, .sce, 1), (.cpe h, .cpe, 2)]

/-- R239, R240, R242, R243, R286: the checks of an audio element before its body, in their order: a count above
`CFG_MAX_SAMPLES` raises `BufferOverrun`; channels past `CFG_NUM_CH` raise `MalformedStream`; in a compressed element so do
`UB` ≠ 0 below 24 bits and a chanBits outside 1..32. The cursor is where the header ended. -/
def Obligations.AudioHeaderChecks : Prop :=
  ∀ (s : State) (h : AudioHeader) (i : Instr) (st : ParserState) (nch : Nat), (i, st, nch) ∈ audioForms h →
    let n := h.count.getD s.cfg.maxSamples
    (s.cfg.maxSamples.toNat < n.toNat → exec i s = .next (s.raiseError .bufferOverrun)) ∧
    (n.toNat ≤ s.cfg.maxSamples.toNat → s.cfg.numCh.toNat < s.parser.ci + nch →
      exec i s = .next (s.raiseError .malformedStream)) ∧
    (n.toNat ≤ s.cfg.maxSamples.toNat → s.parser.ci + nch ≤ s.cfg.numCh.toNat → h.esc = false →
      (h.ub ≠ 0#2 ∧ s.cfg.bits.toNat < 24 ∨
        (s.cfg.bits.toNat : Int) - 8 * h.ub.toNat + (nch - 1) < 1 ∨
        32 < (s.cfg.bits.toNat : Int) - 8 * h.ub.toNat + (nch - 1)) →
      exec i s = .next (s.raiseError .malformedStream))

/-- R241, R244, R203, R255: a compressed audio element that passes its checks reads its two mix fields and waits for the predictor
header of channel 0, with its header registers loaded and the high-water mark raised; a CPE with an illegal weight or shift,
or a `CFG_KMOD` of 32 or more, raises `MalformedStream` after the two fields. R127, R282: two fields that run past the end raise
`MalformedStream` with the cursor past the end and nothing else done. That the element's step stops after its mix fields, with
its predictor header a step of its own, is the model's cut (log 1, DESIGN CHOICE). -/
def Obligations.CompressedElementBegins : Prop :=
  ∀ (s : State) (h : AudioHeader) (i : Instr) (st : ParserState) (nch : Nat), (i, st, nch) ∈ audioForms h →
    let n := h.count.getD s.cfg.maxSamples
    let cb : Int := s.cfg.bits.toNat - 8 * h.ub.toNat + (nch - 1)
    let bytes := n * (s.cfg.numCh.setWidth 32 * BitVec.ofNat 32 (bytesPerSample s.cfg.bits))
    let shift := s.streamNat s.pos 8
    let weight := s.streamNat (s.pos + 8) 8
    h.esc = false → n.toNat ≤ s.cfg.maxSamples.toNat → s.parser.ci + nch ≤ s.cfg.numCh.toNat →
    (h.ub = 0#2 ∨ 24 ≤ s.cfg.bits.toNat) → 1 ≤ cb → cb ≤ 32 →
    (s.InputReadable → s.pos ≤ s.endPos → s.endPos < 2 ^ 34 → s.endPos < s.pos + 16 →
      exec i s = .next ((s.cursorAt (if s.endPos < s.pos + 8 then s.pos + 8 else s.pos + 16)).raiseError
        .malformedStream)) ∧
    (s.CanRead 16 → exec i s =
        if (nch = 2 ∧ (128 ≤ weight ∨ weight ≠ 0 ∧ 32 ≤ shift)) ∨ 32 ≤ s.cfg.kmod.toNat then
          .next ((s.cursorAt (s.pos + 16)).raiseError .malformedStream)
        else .next
          { (s.cursorAt (s.pos + 16)) with
            parser := { state := st, ci := s.parser.ci, hwm := if s.parser.hwm.slt bytes then bytes else s.parser.hwm,
                        n := n, ub := h.ub, esc := false, hasSize := h.count.isSome,
                        mixShift := BitVec.ofNat 8 shift, mixWeight := BitVec.ofNat 8 weight }
            stage := .predictor
            chan := .c0 })

/-- R248, R249, R214, R256: a not-compressed SCE or LFE of n samples of S bits runs to its end: the samples are the S-bit groups of
the stream, sign-extended, they are in the output buffer in their containers, `CI` grows by one and the parser reads the
next tag. R127, R282: samples that run past the end raise `MalformedStream` with the cursor past the end, at most 16 bits, and
no output is written. -/
def Obligations.RawMonoElement : Prop :=
  ∀ (s : State) (h : AudioHeader) (i : Instr), i = .sce h ∨ i = .lfe h → h.esc = true → s.cfg.Legal →
    s.cfg.configured = true →
    let n := h.count.getD s.cfg.maxSamples
    let size := s.cfg.bits.toNat
    let bytes := n * s.frameStride
    n.toNat ≤ s.cfg.maxSamples.toNat → s.parser.ci + 1 ≤ s.cfg.numCh.toNat →
    (s.InputReadable → s.pos ≤ s.endPos → s.endPos < 2 ^ 34 → s.endPos < s.pos + n.toNat * size →
      ∃ p, s.endPos < p ∧ p ≤ s.endPos + 16 ∧ p ≤ s.pos + n.toNat * size ∧
        exec i s = .next ((s.cursorAt p).raiseError .malformedStream) ∧
        ((s.cursorAt p).raiseError .malformedStream).mem = s.mem) ∧
    (s.mem.unserved = [] → s.CanRead (n.toNat * size) →
      ∃ t, exec i s = .next t ∧
        t.ch0.smp = (List.range n.toNat).map (fun j => sext size (s.streamWord (s.pos + j * size) size)) ∧
        t.pos = s.pos + n.toNat * size ∧
        t.parser = { state := .fetchTag, ci := s.parser.ci + 1,
                     hwm := if s.parser.hwm.slt bytes then bytes else s.parser.hwm, n := n, ub := 0#2, esc := true,
                     hasSize := h.count.isSome, mixShift := 0#8, mixWeight := 0#8 } ∧
        t.stage = .element ∧ t.port = s.port ∧ t.cfg = s.cfg ∧ t.ch1 = s.ch1 ∧ t.rice = s.rice ∧
        ∀ j < n.toNat, ∀ k < s.bps,
          t.mem.read (s.port.outAddr +
            BitVec.ofNat 32 ((j * s.cfg.numCh.toNat + s.slot s.parser.ci) * s.bps + k)) =
            some ((containerValue s.cfg.bits 0#2 (sext size (s.streamWord (s.pos + j * size) size)) 0#32).extractLsb'
              (8 * k) 8))

/-- R248 to R250, R214, R256: a not-compressed CPE runs to its end: its samples are interleaved per sample time, and on the paths of
the defect (`ESC_B_BUG`) channel 1 takes channel 0's value while its own bits are still read. The parser registers hold the
element's header with `UB` and the mix fields 0, `HWM` is raised, `CI` grows by two, and the samples of each channel are in
the output buffer in their containers; where the two channels have one slot, channel 1's bytes stay (R27). A slot is below C
in every DECODE (R236). R127, R282: samples that run past the end raise `MalformedStream` with the cursor past the end, at most
16 bits, and no output is written. -/
def Obligations.RawStereoElement : Prop :=
  ∀ (s : State) (h : AudioHeader), h.esc = true → s.cfg.Legal → s.cfg.configured = true →
    let n := h.count.getD s.cfg.maxSamples
    let size := s.cfg.bits.toNat
    let bytes := n * s.frameStride
    let bug := match s.params.escBug with
      | .le16 => size ≤ 16 | .gt16 => 16 < size | .both => True | .clean => False
    n.toNat ≤ s.cfg.maxSamples.toNat → s.parser.ci + 2 ≤ s.cfg.numCh.toNat →
    (s.InputReadable → s.pos ≤ s.endPos → s.endPos < 2 ^ 34 → s.endPos < s.pos + n.toNat * (2 * size) →
      ∃ p, s.endPos < p ∧ p ≤ s.endPos + 16 ∧ p ≤ s.pos + n.toNat * (2 * size) ∧
        exec (.cpe h) s = .next ((s.cursorAt p).raiseError .malformedStream) ∧
        ((s.cursorAt p).raiseError .malformedStream).mem = s.mem) ∧
    (s.mem.unserved = [] → s.CanRead (n.toNat * (2 * size)) →
      ∃ t, exec (.cpe h) s = .next t ∧
        t.ch0.smp = (List.range n.toNat).map (fun j => sext size (s.streamWord (s.pos + j * (2 * size)) size)) ∧
        (bug → t.ch1.smp = t.ch0.smp) ∧
        (¬bug → t.ch1.smp =
          (List.range n.toNat).map fun j => sext size (s.streamWord (s.pos + j * (2 * size) + size) size)) ∧
        t.pos = s.pos + n.toNat * (2 * size) ∧
        t.parser = { state := .fetchTag, ci := s.parser.ci + 2,
                     hwm := if s.parser.hwm.slt bytes then bytes else s.parser.hwm, n := n, ub := 0#2, esc := true,
                     hasSize := h.count.isSome, mixShift := 0#8, mixWeight := 0#8 } ∧
        t.stage = .element ∧ t.port = s.port ∧ t.cfg = s.cfg ∧ t.rice = s.rice ∧
        (s.slot s.parser.ci < s.cfg.numCh.toNat → s.slot (s.parser.ci + 1) < s.cfg.numCh.toNat →
          ∀ (j k : Nat) (v : Word), k < s.bps →
            (t.ch1.smp[j]? = some v →
              t.mem.read (s.port.outAddr +
                BitVec.ofNat 32 ((j * s.cfg.numCh.toNat + s.slot (s.parser.ci + 1)) * s.bps + k)) =
                some ((containerValue s.cfg.bits 0#2 v 0#32).extractLsb' (8 * k) 8)) ∧
            (t.ch0.smp[j]? = some v → s.slot s.parser.ci ≠ s.slot (s.parser.ci + 1) →
              t.mem.read (s.port.outAddr +
                BitVec.ofNat 32 ((j * s.cfg.numCh.toNat + s.slot s.parser.ci) * s.bps + k)) =
                some ((containerValue s.cfg.bits 0#2 v 0#32).extractLsb' (8 * k) 8))))

/-- The predictor header of each row and its fields: mode, quant, ricemod, ncoef, coefficients (R93). -/
def Sys2Proof.Machine.headerOf : Instr → Option (BitVec 4 × BitVec 4 × BitVec 3 × BitVec 5 × List (BitVec 16))
  | .predCopy q r => some (0#4, q, r, 0#5, [])
  | .predFirstDiff q r cs => some (0#4, q, r, 31#5, cs)
  | .predAdaptive q r n cs => some (0#4, q, r, n, cs)
  | .predPrepass m q r n cs => some (m, q, r, n, cs)
  | _ => none

/-- R245, R241, R160: a predictor header loads the registers and the coefficients of its channel. After the header of channel 0 of
a CPE the header of channel 1 comes next. After the last header, when `UB` is 0 and the element has samples, the run of
channel 0 begins: `HISTORY` = `CFG_INIT_HIST`, `SIGN_MOD` = 0, no residual yet; nothing else changes. An element of no samples
ends after its last header: it reads no bit and writes no output (R160, R239). That all this is in the header's own step is
the model's cut (log 1, DESIGN CHOICE). -/
def Obligations.PredictorHeaderLoads : Prop :=
  ∀ (s : State) (i : Instr) (m q : BitVec 4) (r : BitVec 3) (n : BitVec 5) (cs : List (BitVec 16)),
    headerOf i = some (m, q, r, n, cs) → i.wf .predictor = true →
    let load : ChanRegs → ChanRegs := fun c =>
      { c with mode := m, quant := q, ricemod := r, ncoef := n,
               coef := cs.map (fun x => x.signExtend 32) ++ c.coef.drop cs.length }
    (s.chan = .c0 → s.parser.state = .cpe →
      exec i s = .next { s with ch0 := load s.ch0, stage := .predictor, chan := .c1 }) ∧
    (s.chan = .c0 → s.parser.state ≠ .cpe → s.parser.ub = 0#2 → s.parser.n ≠ 0#32 →
      exec i s = .next
        { s with ch0 := { load s.ch0 with res := [] }
                 rice := { s.rice with history := s.cfg.initHist.setWidth 32, signMod := 0#32 }
                 stage := .residual, chan := .c0 }) ∧
    (s.chan = .c1 → s.parser.ub = 0#2 → s.parser.n ≠ 0#32 →
      exec i s = .next
        { s with ch0 := { s.ch0 with res := [] }, ch1 := load s.ch1
                 rice := { s.rice with history := s.cfg.initHist.setWidth 32, signMod := 0#32 }
                 stage := .residual, chan := .c0 }) ∧
    (s.chan = .c1 ∨ s.parser.state ≠ .cpe → s.parser.n = 0#32 →
      ∃ t, exec i s = .next t ∧ t.mem = s.mem ∧ t.cursor = s.cursor ∧ t.port = s.port ∧ t.cfg = s.cfg ∧
        t.parser = { s.parser with ci := s.parser.ci + s.nch, state := .fetchTag } ∧ t.stage = .element)

/-- R246, R95, R241: when `UB` > 0 the last predictor header of an element with samples is followed by the low-bit planes: values of
8*UB bits, for each sample channel 0 and then channel 1 of a CPE. Then the run of channel 0 begins (R160). That the header's own
step reads the planes is the model's cut (log 1, DESIGN CHOICE). R127, R282: planes that run past the end raise
`MalformedStream` with the cursor past the end, at most 16 bits, and no output is written. -/
def Obligations.LowPlanesAreRead : Prop :=
  ∀ (s : State) (i : Instr) (m q : BitVec 4) (r : BitVec 3) (n : BitVec 5) (cs : List (BitVec 16)),
    headerOf i = some (m, q, r, n, cs) → i.wf .predictor = true → s.chan = .c1 ∨ s.nch = 1 →
    s.parser.ub ≠ 0#2 → s.parser.n ≠ 0#32 →
    let w := 8 * s.parser.ub.toNat
    (s.InputReadable → s.pos ≤ s.endPos → s.endPos < 2 ^ 34 → s.endPos < s.pos + s.parser.n.toNat * (s.nch * w) →
      ∃ p, s.endPos < p ∧ p ≤ s.endPos + 16 ∧ p ≤ s.pos + s.parser.n.toNat * (s.nch * w) ∧
        exec i s = .next ((s.cursorAt p).raiseError .malformedStream) ∧
        ((s.cursorAt p).raiseError .malformedStream).mem = s.mem) ∧
    (s.CanRead (s.parser.n.toNat * (s.nch * w)) →
      ∃ t, exec i s = .next t ∧ t.pos = s.pos + s.parser.n.toNat * (s.nch * w) ∧
        t.ch0.low = (List.range s.parser.n.toNat).map (fun j => s.streamWord (s.pos + j * (s.nch * w)) w) ∧
        (s.nch = 2 → t.ch1.low =
          (List.range s.parser.n.toNat).map fun j => s.streamWord (s.pos + j * (s.nch * w) + w) w) ∧
        (t.ch s.chan).mode = m ∧ (t.ch s.chan).quant = q ∧ (t.ch s.chan).ricemod = r ∧ (t.ch s.chan).ncoef = n ∧
        (t.ch s.chan).coef = cs.map (fun x => x.signExtend 32) ++ (s.ch s.chan).coef.drop cs.length ∧
        t.rice = { s.rice with history := s.cfg.initHist.setWidth 32, signMod := 0#32 } ∧ t.ch0.res = [] ∧
        t.stage = .residual ∧ t.chan = .c0 ∧ t.port = s.port ∧ t.cfg = s.cfg ∧ t.mem = s.mem ∧ t.parser = s.parser)

/-- The frame of the instructions that can end an audio element (elements SCE, CPE, LFE, predictor headers, codewords): host
memory changes only at the addresses of the element's samples, and only when the element ends; the host port changes only
by the end of the command; the other registers are those of the decoder. n and nch are the element's sample count and
number of channels, which the three audio elements set themselves. -/
def Obligations.ElementMemoryFrame : Prop :=
  ∀ (i : Instr) (s t : State) (n : Word) (nch : Nat),
    ((∃ h st, (i, st, nch) ∈ audioForms h ∧ n = h.count.getD s.cfg.maxSamples) ∨
      (((headerOf i).isSome = true ∨ (∃ c, i = residualOf c) ∨ ∃ c, i = .zeroRun c) ∧ n = s.parser.n ∧ nch = s.nch)) →
    exec i s = .next t →
    (∀ a : Word,
      (∀ j < n.toNat, ∀ ch < nch, ∀ k < s.bps, a ≠ s.sampleAddr j (s.parser.ci + ch) + BitVec.ofNat 32 k) →
      t.mem.read a = s.mem.read a) ∧
    (t.stage ≠ .element → ∀ a : Word, t.mem.read a = s.mem.read a) ∧
    t.cfg = s.cfg ∧ t.params = s.params ∧
    (t.stage ≠ .idle → t.port = s.port) ∧
    (t.stage = .idle → t.port = { s.port with busy := false, done := true, err := t.port.err,
                                              outLen := if s.op = 1#4 then 0#32 else s.port.outLen })

/-- The frame of the decoder registers, for instructions that do not end the command: an audio element writes no Rice register and
in the channels only samples; a codeword writes only its channel's residuals, samples and coefficients, and restarts the
residuals of channel 1 after channel 0; it writes no parser register but `STATE` and `CI`. -/
def Obligations.DecoderRegisterFrame : Prop :=
  ∀ (i : Instr) (s t : State), exec i s = .next t → t.stage ≠ .idle →
    ((∃ h st nch, (i, st, nch) ∈ audioForms h) →
      t.rice = s.rice ∧ t.ch0 = { s.ch0 with smp := t.ch0.smp } ∧ t.ch1 = { s.ch1 with smp := t.ch1.smp }) ∧
    (((∃ c, i = residualOf c) ∨ ∃ c, i = .zeroRun c) →
      t.parser = { s.parser with state := t.parser.state, ci := t.parser.ci } ∧ t.cursor = s.cursor ∧
      t.ch0 = { s.ch0 with res := t.ch0.res, smp := t.ch0.smp, coef := t.ch0.coef } ∧
      t.ch1 = { s.ch1 with res := t.ch1.res, smp := t.ch1.smp, coef := t.ch1.coef } ∧
      (s.chan = .c1 → t.ch0 = s.ch0) ∧ (s.chan = .c0 → s.nch = 1 → t.ch1 = s.ch1))

/-- R260: the element stream is straight-line: an element, a predictor header and the end of the stream leave the cursor at or
after where it was, and the step that reads an element moves it by at least its three tag bits. -/
def Obligations.CursorOnlyMovesForward : Prop :=
  ∀ s t : State, s.Inv → (s.stage = .element ∨ s.stage = .predictor) → coreStep s = .next t → t.port.err = 0#4 →
    s.pos + 3 ≤ t.pos
end

