-- ==== Sys2Proof/Laws/PerInstr.lean ====
section
/-! SUPPORT. Facts about every instruction as syntax, one lemma per constructor of Instr (LAWS.json). The family
NonemptyEncoding: a well-formed instruction of any form takes at least one bit of it. -/

namespace Sys2Proof.Laws.NonemptyEncoding

/-- In every form in which the instruction is well-formed, its encoding is not empty. -/
def Statement (i : Instr) : Prop := ∀ f : Form, i.wf f = true → encode f i ≠ []

theorem configure (a b : BitVec 6) : Statement (.configure a b) := by
  intro f h; cases f <;> simp [Instr.wf, encode, fieldBits, bitsOf] at *

theorem decode (a b : BitVec 6) : Statement (.decode a b) := by
  intro f h; cases f <;> simp [Instr.wf, encode, fieldBits, bitsOf] at *

theorem brSeek (a b : BitVec 6) : Statement (.brSeek a b) := by
  intro f h; cases f <;> simp [Instr.wf, encode, fieldBits, bitsOf] at *

theorem brRead (a b : BitVec 6) : Statement (.brRead a b) := by
  intro f h; cases f <;> simp [Instr.wf, encode, fieldBits, bitsOf] at *

theorem brReadBit (a b : BitVec 6) : Statement (.brReadBit a b) := by
  intro f h; cases f <;> simp [Instr.wf, encode, fieldBits, bitsOf] at *

theorem brUnread (a b : BitVec 6) : Statement (.brUnread a b) := by
  intro f h; cases f <;> simp [Instr.wf, encode, fieldBits, bitsOf] at *

theorem lzc (a b : BitVec 6) : Statement (.lzc a b) := by
  intro f h; cases f <;> simp [Instr.wf, encode, fieldBits, bitsOf] at *

theorem riceValue (a b : BitVec 6) : Statement (.riceValue a b) := by
  intro f h; cases f <;> simp [Instr.wf, encode, fieldBits, bitsOf] at *

theorem reservedOp (w : BitVec 32) : Statement (.reservedOp w) := by
  intro f h; cases f <;> simp [Instr.wf, encode, fieldBits, bitsOf] at *

theorem sce (h : AudioHeader) : Statement (.sce h) := by
  intro f h; cases f <;> simp [Instr.wf, encode, fieldBits, bitsOf] at *

theorem cpe (h : AudioHeader) : Statement (.cpe h) := by
  intro f h; cases f <;> simp [Instr.wf, encode, fieldBits, bitsOf] at *

theorem cce : Statement .cce := by
  intro f h; cases f <;> simp [Instr.wf, encode, fieldBits, bitsOf] at *

theorem lfe (h : AudioHeader) : Statement (.lfe h) := by
  intro f h; cases f <;> simp [Instr.wf, encode, fieldBits, bitsOf] at *

theorem gap (cnt : BitVec 4) (ext : Option (BitVec 8)) : Statement (.gap cnt ext) := by
  intro f h; cases f <;> simp [Instr.wf, encode, fieldBits, bitsOf] at *

theorem pce : Statement .pce := by
  intro f h; cases f <;> simp [Instr.wf, encode, fieldBits, bitsOf] at *

theorem fill (inst : BitVec 4) (al : Bool) (cnt : BitVec 8) (ext : Option (BitVec 8)) :
    Statement (.fill inst al cnt ext) := by
  intro f h; cases f <;> simp [Instr.wf, encode, fieldBits, bitsOf] at *

theorem endElement : Statement .endElement := by
  intro f h; cases f <;> simp [Instr.wf, encode, fieldBits, bitsOf] at *

theorem predCopy (q : BitVec 4) (r : BitVec 3) : Statement (.predCopy q r) := by
  intro f h; cases f <;> simp [Instr.wf, encode, encodePredictor, fieldBits, bitsOf] at *

theorem predFirstDiff (q : BitVec 4) (r : BitVec 3) (cs : List (BitVec 16)) : Statement (.predFirstDiff q r cs) := by
  intro f h; cases f <;> simp [Instr.wf, encode, encodePredictor, fieldBits, bitsOf] at *

theorem predAdaptive (q : BitVec 4) (r : BitVec 3) (n : BitVec 5) (cs : List (BitVec 16)) :
    Statement (.predAdaptive q r n cs) := by
  intro f h; cases f <;> simp [Instr.wf, encode, encodePredictor, fieldBits, bitsOf] at *

theorem predPrepass (m q : BitVec 4) (r : BitVec 3) (n : BitVec 5) (cs : List (BitVec 16)) :
    Statement (.predPrepass m q r n cs) := by
  intro f h; cases f <;> simp [Instr.wf, encode, encodePredictor, fieldBits, bitsOf] at *

theorem riceUnary (x : BitVec 4) (s : BitVec 32) : Statement (.riceUnary x s) := by
  intro f h; cases f <;> simp [Instr.wf, encode, encodeCodeword] at *

theorem riceEscape (v : BitVec 32) : Statement (.riceEscape v) := by
  intro f h; cases f <;> simp [Instr.wf, encode, encodeCodeword] at *

theorem zeroRun (cw : Codeword) : Statement (.zeroRun cw) := by
  intro f h; cases f <;> cases cw <;> simp [Instr.wf, encode, encodeCodeword] at *

end Sys2Proof.Laws.NonemptyEncoding
end

