-- ==== Sys2Proof/Laws/Step.lean ====
section
/-! SUPPORT. What a step can do, said once: whose turn it is, what a fetch leaves, and how a host operation and an element's
output can end. -/

namespace Sys2Proof.Machine

/-- A core step, when the turn is the core's. -/
theorem step_core {s : State} {rest : List HostOp} (h : s.turn = .core rest) : step s = coreStep (s.setHost rest) := by
  simp only [step, h]

/-- A host step, when the turn is the host's. -/
theorem step_host {s : State} {o : HostOp} {rest : List HostOp} (h : s.turn = .host o rest) :
    step s = hostStep o (s.setHost rest) := by
  simp only [step, h]

/-- A host with nothing to do leaves the core its turn. -/
theorem turn_of_host_nil {s : State} (h : s.host = []) : s.turn = .core [] := by
  simp only [State.turn, h]

/-- A core that is not running a command does nothing (R296). -/
theorem coreStep_idle {s : State} (h : s.stage = .idle) : coreStep s = .next s := if_pos h

/-- A core that runs a command runs what it fetches. -/
theorem coreStep_running {s : State} (h : s.stage ≠ .idle) : coreStep s = runFetched (fetch s) := if_neg h

/-- A fetch moves the cursor and does nothing else, unless it is of a command word while two buffers overlap. -/
theorem fetch_moves (s : State) (ha : s.form = none → s.buffersOverlap = false) : (fetch s).MovesCursor s := by
  unfold fetch
  split
  · unfold fetchStream
    split
    · exact ⟨rfl, s.cursor, rfl⟩
    · exact fetchFields_moves _ s
  · unfold fetchCommand
    rw [if_neg (by simp [ha ‹_›])]
    exact Res.MovesCursor.ok_same s _

/-- In the command stage the instruction is the command word, and the cursor stays, unless two buffers overlap. -/
theorem fetch_command {s : State} (h : s.stage = .command) (ha : s.buffersOverlap = false) :
    fetch s = .ok (decodeCommand s.port.cmd) s := by
  simp [fetch, State.form, h, fetchCommand, ha]

/-- In the command stage, with two buffers that overlap, there is no step (R73). -/
theorem fetch_command_overlap {s : State} (h : s.stage = .command) (ha : s.buffersOverlap = true) :
    fetch s = .stuck .buffersOverlap := by
  simp [fetch, State.form, h, fetchCommand, ha]

/-- A register write of the host is a write, or the `CMD` write that has no step (R73). -/
theorem hostWriteReg_cases (s : State) (off : Nat) (v : Word) :
    s.hostWriteReg off v = .next (s.writeReg off v) ∨
      off = 0 ∧ s.port.busy = false ∧ s.buffersOverlap = true ∧ s.hostWriteReg off v = .fault .buffersOverlap := by
  unfold State.hostWriteReg
  split
  · rename_i h; exact .inr ⟨h.1, h.2.1, h.2.2, rfl⟩
  · exact .inl rfl

/-- A host operation is never refused. -/
theorem hostStep_ne_refused (o : HostOp) (s : State) (r : Refusal) : hostStep o s ≠ .refused r := by
  cases o <;> simp only [hostStep, State.hostWriteReg, State.hostWrite, State.hostRead] <;> (repeat' split) <;> simp

/-- Where the platform serves every address, an element's output is always written. -/
theorem writeAll_ne_none {m : Memory} (h : m.unserved = []) (l : List (Word × Byte)) : m.writeAll l ≠ none := by
  induction l generalizing m with
  | nil => simp [Memory.writeAll]
  | cons x l ih =>
    obtain ⟨a, v⟩ := x
    have hs : m.serves a.toNat = true := by simp [Memory.serves, h]
    simp only [Memory.writeAll, Memory.write, hs, if_true, Option.bind_some]
    exact ih (by exact h)

end Sys2Proof.Machine
end

