-- ==== Sys2Proof/Tests/Slice0.lean ====
section
/-! SUPPORT. Small tests of the model: the checks of WellFormed refuse ill-formed terms; words written out bit by bit from
spec/30_encoding.md decode to what they stand for; one step of each instruction on the vectors of spec/95_test_vectors.md
(the vector's name stands in the comment); and, for every statement with hypotheses, a state and operands that meet them. -/

set_option Elab.async false

namespace Sys2Proof.Tests

open Sys2Proof Sys2Proof.Machine

/-! ### Helpers -/

/-- Bits written as 0 and 1. -/
def bits (l : List Nat) : List Bool := l.map (· == 1)

/-- A core configured for `max` samples of `depth` bits in `ch` channels (history 40, 10, 14, as in the cookies of the vectors),
its frame at 0x2000, its output at 0x3000, the channel map the identity. -/
def configured (max depth ch : Nat) (frame : List Byte) : State :=
  { State.reset with
    cfg := ⟨BitVec.ofNat 32 max, BitVec.ofNat 8 depth, 40#8, 10#8, 14#8, BitVec.ofNat 8 ch, true⟩
    port := { Port.reset with inAddr := 0x2000#32, inLen := BitVec.ofNat 32 frame.length, outAddr := 0x3000#32,
                              outCap := 0x1000#32, chmap := 0x76543210#32 }
    mem := State.reset.mem.place 0x2000#32 frame }

/-- A running DECODE about to read the given part of the stream. -/
def running (g : Stage) (p : ParserState) (s : State) : State :=
  { s with port := { s.port with cmd := 1#32, busy := true }, stage := g, parser := { s.parser with state := p } }

/-- A compressed element of n samples with a run of channel c going on. -/
def inRun (g : Stage) (p : ParserState) (c : Ch) (n : Nat) (s : State) : State :=
  let s := running g p s
  { s with chan := c, parser := { s.parser with n := BitVec.ofNat 32 n }, rice := ⟨10#32, 0#32, 0#32⟩ }

/-- The header of an audio element. -/
def hdr (esc : Bool) (ub : Nat) (count : Option Nat) : AudioHeader :=
  ⟨0#4, 0#12, BitVec.ofNat 2 ub, esc, count.map (BitVec.ofNat 32)⟩

/-- A test on the state after an instruction. -/
def after (o : Host.Outcome State Fault Refusal) (p : State → Bool) : Bool :=
  match o with
  | .next t => p t
  | _ => false

/-- A next state exists. -/
theorem next_of {o : Host.Outcome State Fault Refusal} (h : after o (fun _ => true) = true) : ∃ t, o = .next t := by
  cases o with
  | next t => exact ⟨t, rfl⟩
  | fault _ => simp [after] at h
  | refused _ => simp [after] at h

/-- A next state with a property exists. -/
theorem next_with {o : Host.Outcome State Fault Refusal} {p : State → Bool} (h : after o p = true) :
    ∃ t, o = .next t ∧ p t = true := by
  cases o with
  | next t => exact ⟨t, rfl, h⟩
  | fault _ => simp [after] at h
  | refused _ => simp [after] at h

/-- The byte of host memory at an address is b. -/
def byteIs (t : State) (a : Nat) (b : Byte) : Bool := t.mem.read (BitVec.ofNat 32 a) == some b

/-! ### Ill-formed terms are refused -/

theorem test_wf_reserved : (Instr.reservedOp 0x7#32).wf .command = false := by decide
theorem test_wf_wrongForm : (Instr.sce (hdr true 0 none)).wf .command = false := by decide
theorem test_wf_gap : (Instr.gap 15#4 none).wf (.element .doc) = false ∧
    (Instr.gap 3#4 (some 0#8)).wf (.element .doc) = false := by decide
theorem test_wf_fill : (Instr.fill 0#4 true 255#8 none).wf (.element .doc) = false ∧
    (Instr.fill 0#4 true 2#8 (some 0#8)).wf (.element .doc) = false := by decide
theorem test_wf_firstDiff : (Instr.predFirstDiff 0#4 0#3 (List.replicate 30 0#16)).wf .predictor = false := by decide
theorem test_wf_adaptive_low : (Instr.predAdaptive 0#4 0#3 0#5 []).wf .predictor = false := by decide
theorem test_wf_adaptive_high :
    (Instr.predAdaptive 0#4 0#3 31#5 (List.replicate 31 0#16)).wf .predictor = false := by decide
theorem test_wf_adaptive_length : (Instr.predAdaptive 0#4 0#3 2#5 [0#16]).wf .predictor = false := by decide
theorem test_wf_prepass_mode : (Instr.predPrepass 0#4 0#4 0#3 0#5 []).wf .predictor = false := by decide
theorem test_wf_prepass_length : (Instr.predPrepass 1#4 0#4 0#3 2#5 []).wf .predictor = false := by decide
theorem test_wf_unary_prefix : (Instr.riceUnary 9#4 0#32).wf (.codeword 16 3) = false := by decide
theorem test_wf_unary_one : (Instr.riceUnary 0#4 1#32).wf (.codeword 16 3) = false := by decide
theorem test_wf_unary_k1 : (Instr.riceUnary 0#4 2#32).wf (.codeword 16 1) = false := by decide
theorem test_wf_unary_wide : (Instr.riceUnary 0#4 8#32).wf (.codeword 16 3) = false := by decide
theorem test_wf_escape : (Instr.riceEscape 0x10000#32).wf (.codeword 16 3) = false := by decide
theorem test_wf_zeroRun : (Instr.zeroRun (.escape 0x10000#32)).wf (.zeroRun 3) = false := by decide

/-! ### Written-out words decode (spec/30_encoding.md) -/

theorem test_decode_configure : decodeCommand 0x00000000#32 = .configure 0#6 0#6 := by decide
theorem test_decode_decode : decodeCommand 0x00000001#32 = .decode 0#6 0#6 := by decide
theorem test_decode_brSeek : decodeCommand 0x00000002#32 = .brSeek 0#6 0#6 := by decide
theorem test_decode_brRead : decodeCommand 0x00000143#32 = .brRead 20#6 0#6 := by decide
theorem test_decode_brReadBit : decodeCommand 0x00000004#32 = .brReadBit 0#6 0#6 := by decide
theorem test_decode_brUnread : decodeCommand 0x00000055#32 = .brUnread 5#6 0#6 := by decide
theorem test_decode_lzc : decodeCommand 0x00000016#32 = .lzc 1#6 0#6 := by decide
theorem test_decode_riceValue : decodeCommand 0x00008007#32 = .riceValue 0#6 32#6 := by decide
theorem test_decode_reserved : decodeCommand 0x00000008#32 = .reservedOp 8#32 := by decide

/-- P1: tag 000, instance 0000, unused, hassize 0, ub 00, esc 1. -/
theorem test_decode_sce : decode (.element .doc) (bits [0,0,0, 0,0,0,0, 0,0,0,0,0,0,0,0,0,0,0,0, 0, 0,0, 1]) =
    .ok (.sce (hdr true 0 none), 23) := by decide +kernel

/-- Tag 001, instance 0101, unused 1, hassize 1, ub 10, esc 0, count 6. -/
theorem test_decode_cpe : decode (.element .doc)
    (bits ([0,0,1, 0,1,0,1, 0,0,0,0,0,0,0,0,0,0,0,1, 1, 1,0, 0] ++ List.replicate 29 0 ++ [1,1,0])) =
    .ok (.cpe ⟨5#4, 1#12, 2#2, false, some 6#32⟩, 55) := by decide +kernel

theorem test_decode_lfe : decode (.element .doc) (bits [0,1,1, 0,0,0,0, 0,0,0,0,0,0,0,0,0,0,0,0, 0, 0,1, 0]) =
    .ok (.lfe (hdr false 1 none), 23) := by decide +kernel
theorem test_decode_cce : decode (.element .doc) (bits [0,1,0]) = .ok (.cce, 3) := by decide
theorem test_decode_pce : decode (.element .doc) (bits [1,0,1]) = .ok (.pce, 3) := by decide
theorem test_decode_end : decode (.element .doc) (bits [1,1,1]) = .ok (.endElement, 3) := by decide
theorem test_decode_gap : decode (.element .doc) (bits [1,0,0, 0,0,1,0]) = .ok (.gap 2#4 none, 7) := by decide
theorem test_decode_fill : decode (.element .doc)
    (bits [1,1,0, 0,0,0,1, 1, 1,1,1,1,1,1,1,1, 0,0,0,0,0,1,0,0]) = .ok (.fill 1#4 true 255#8 (some 4#8), 24) := by
  decide +kernel

/-- R234: under the swapped assignment tag 6 has the gap body and tag 4 the fill body. -/
theorem test_decode_swapped : decode (.element .swapped) (bits [1,1,0, 0,0,1,0]) = .ok (.gap 2#4 none, 7) ∧
    decode (.element .swapped) (bits [1,0,0, 0,0,0,1, 0, 0,0,0,0,0,0,1,0]) = .ok (.fill 1#4 false 2#8 none, 16) := by
  decide +kernel

theorem test_decode_copy : decode .predictor (bits [0,0,0,0, 0,0,1,0, 1,0,0, 0,0,0,0,0]) =
    .ok (.predCopy 2#4 4#3, 16) := by decide +kernel
theorem test_decode_firstDiff :
    decode .predictor (bits ([0,0,0,0, 0,0,0,0, 1,0,0, 1,1,1,1,1] ++ List.replicate 496 0)) =
      .ok (.predFirstDiff 0#4 4#3 (List.replicate 31 0#16), 512) := by decide +kernel

/-- P5: mode 0, quant 8, ricemod 4, ncoef 1, coefficient 256. -/
theorem test_decode_adaptive :
    decode .predictor (bits [0,0,0,0, 1,0,0,0, 1,0,0, 0,0,0,0,1, 0,0,0,0,0,0,0,1,0,0,0,0,0,0,0,0]) =
      .ok (.predAdaptive 8#4 4#3 1#5 [256#16], 32) := by decide +kernel
theorem test_decode_prepass :
    decode .predictor (bits [0,1,0,0, 0,0,0,0, 0,0,1, 0,0,0,0,0]) = .ok (.predPrepass 4#4 0#4 1#3 0#5 [], 16) := by
  decide +kernel

/-- RV-5: 10 101 with k = 3. RV-7: 10 000, one bit given back. RV-4: eight ones and a zero with k = 1. -/
theorem test_decode_unary : decode (.codeword 16 3) (bits [1,0, 1,0,1]) = .ok (.riceUnary 1#4 5#32, 5) ∧
    decode (.codeword 16 3) (bits [1,0, 0,0,0]) = .ok (.riceUnary 1#4 0#32, 4) ∧
    decode (.codeword 16 1) (bits [1,1,1,1,1,1,1,1, 0]) = .ok (.riceUnary 8#4 0#32, 9) := by decide +kernel

/-- RV-11: nine ones and 0101 with w = 4. -/
theorem test_decode_escape : decode (.codeword 4 5) (bits [1,1,1,1,1,1,1,1,1, 0,1,0,1]) = .ok (.riceEscape 5#32, 13) := by
  decide +kernel

/-- RICE-RUN-2: the block 0 0100 with k = 4. -/
theorem test_decode_zeroRun : decode (.zeroRun 4) (bits [0, 0,1,0,0]) = .ok (.zeroRun (.unary 0#4 4#32), 5) := by
  decide +kernel
theorem test_decode_truncated : decode (.element .doc) (bits [1,1]) = .error .truncated := by decide

/-- The table's numbering: BR_READ of 20 bits as a 32-bit word; a step from reset runs it (IN_LEN 0, so it raises R127). -/
theorem test_table_brRead : decodeTableWord 32 0x143 = some (.brRead 20#6 0#6) ∧
    after (step (State.reset.withFetchWord 32 0x143)) (fun t => t.port.err == 3#4) = true := by decide +kernel

/-- The SCE row's 23 bits (esc 1), right-aligned in 24: the step from reset reads the header and, with no configuration, has no
channel for it (R240). -/
theorem test_table_sce : decodeTableWord 24 1 = some (.sce (hdr true 0 none)) ∧
    after (step (State.reset.withFetchWord 24 1)) (fun t => t.port.err == 3#4 && t.pos == 23) = true := by
  decide +kernel

/-! ### One step of each instruction (spec/95_test_vectors.md) -/

/-- The cookie K1 at 0x1000. -/
def withK1 (len : Nat) : State :=
  { State.reset with
    port := { Port.reset with cookieAddr := 0x1000#32, cookieLen := BitVec.ofNat 32 len }
    mem := State.reset.mem.place 0x1000#32 [0#8, 0#8, 0#8, 4#8, 0#8, 0x10#8, 0x28#8, 0x0A#8, 0x0E#8, 1#8] }

/-- CF-1, P1 step 2. -/
theorem test_configure_k1 : after (step ((withK1 12).withCommand 0#32)) (fun t =>
    t.status == 6#32 && t.regValue 0x40 == 4#32 && t.regValue 0x44 == 0x0E0A2810#32 && t.regValue 0x48 == 1#32) = true := by
  decide +kernel

/-- CF-2. -/
theorem test_configure_short : after (step ((withK1 11).withCommand 0#32)) (fun t => t.status == 0x12#32) = true := by
  decide +kernel

/-- P1 step 4: the frame starts. -/
theorem test_decode_starts : after (step ((configured 4 16 1 [0xE0#8]).withCommand 1#32)) (fun t =>
    t.stage == .element && t.port.busy && t.parser.state == .fetchTag) = true := by decide +kernel

/-- HC-1: not configured. -/
theorem test_decode_unconfigured : after (step (State.reset.withCommand 1#32)) (fun t => t.status == 0x52#32) = true := by
  decide +kernel

/-- P3 step 8: BR_SEEK to 12; then a position past the end. -/
theorem test_brSeek : after (exec (.brSeek 0#6 0#6) { configured 4 16 1 [0xA5#8, 0x3C#8, 0xFF#8] with
      port := { (configured 4 16 1 [0xA5#8, 0x3C#8, 0xFF#8]).port with dataIn := 12#32 } })
    (fun t => t.regValue 0x2C == 1#32 && t.regValue 0x30 == 4#32) = true := by decide +kernel

/-- BR-3. -/
theorem test_brRead : after (exec (.brRead 20#6 0#6) (configured 4 16 1 [0xA5#8, 0x3C#8, 0xFF#8]))
    (fun t => t.port.dataOut == 0xA53CF#32 && t.pos == 20) = true := by decide +kernel

/-- P3 step 7: 20 bits from bit 8 run past the end; `DATA_OUT` stays, the cursor is at 28. -/
theorem test_brRead_past : after (exec (.brRead 20#6 0#6) ((configured 4 16 1 [0xA5#8, 0x3C#8, 0xFF#8]).cursorAt 8))
    (fun t => t.port.dataOut == 0#32 && t.pos == 28 && t.port.err == 3#4) = true := by decide +kernel

/-- BR-11, BR-12. -/
theorem test_brReadBit : after (exec (.brReadBit 0#6 0#6) (configured 4 16 1 [0x80#8]))
    (fun t => t.port.dataOut == 1#32 && t.pos == 1) = true ∧
    after (exec (.brReadBit 0#6 0#6) ((configured 4 16 1 [0x80#8]).cursorAt 8))
      (fun t => t.port.err == 3#4 && t.pos == 9) = true := by decide +kernel

/-- BR-4, BR-10. -/
theorem test_brUnread : after (exec (.brUnread 5#6 0#6) ((configured 4 16 1 [0xA5#8, 0x3C#8, 0xFF#8]).cursorAt 12))
    (fun t => t.pos == 7) = true ∧
    after (exec (.brUnread 4#6 0#6) ((configured 4 16 1 [0xA5#8, 0x3C#8, 0xFF#8]).cursorAt 3))
      (fun t => t.pos == 3 && t.port.err == 3#4) = true := by decide +kernel

/-- LZ-1 to LZ-10. -/
theorem test_lz : [0#32, 0x80000000#32, 1#32, 0xFFFFFFFF#32, 0x800000#32, 0xF#32, 0x10000#32, 3#32, 0x9F#32,
    0x40000000#32].map lz = [32, 0, 31, 0, 8, 28, 15, 30, 24, 1] := by decide +kernel

/-- HC-5. -/
theorem test_lzc_bad : after (exec (.lzc 1#6 0#6) State.reset) (fun t => t.port.err == 5#4) = true := by decide +kernel

/-- HC-10. -/
theorem test_riceValue_escape : after (exec (.riceValue 16#6 4#6) (configured 4 16 1 [0xFF#8, 0x80#8, 0x12#8, 0x34#8]))
    (fun t => t.port.dataOut == 0x24#32 && t.regValue 0x2C == 3#32 && t.regValue 0x30 == 1#32) = true := by decide +kernel

/-- RV-8: 0 11 with k = 2 and mask 1. -/
theorem test_riceValue_mask : after (exec (.riceValue 16#6 2#6)
      { configured 4 16 1 [0x60#8] with port := { (configured 4 16 1 [0x60#8]).port with dataIn := 1#32 } })
    (fun t => t.port.dataOut == 2#32 && t.pos == 3) = true := by decide +kernel

/-- HC-3. -/
theorem test_reserved : after (step (State.reset.withCommand 8#32)) (fun t => t.port.err == 5#4) = true := by
  decide +kernel

/-- P1: the raw samples 100, -50 of a two-sample element (P1b) are stored little-endian. -/
theorem test_sce_raw : after (step (running .element .fetchTag (configured 4 16 1 [0x00#8, 0x00#8, 0x12#8, 0x00#8, 0x00#8,
      0x00#8, 0x04#8, 0x00#8, 0xC9#8, 0xFF#8, 0x9D#8, 0xC0#8])))
    (fun t => byteIs t 0x3000 0x64#8 && byteIs t 0x3001 0#8 && byteIs t 0x3002 0xCE#8 && byteIs t 0x3003 0xFF#8 &&
      t.pos == 87 && t.parser.hwm == 4#32) = true := by decide +kernel

/-- DC-9: `UB` 1 with 16 bits. -/
theorem test_sce_ub : after (step (running .element .fetchTag (configured 4 16 1 [0x00#8, 0x00#8, 0x05#8, 0xC0#8])))
    (fun t => t.port.err == 3#4 && t.pos == 23) = true := by decide +kernel

/-- P8: channel 1 takes channel 0's value. -/
theorem test_cpe_defect : after (step (running .element .fetchTag (configured 2 16 2 [0x20#8, 0x00#8, 0x02#8, 0x00#8, 0x03#8,
      0xFF#8, 0xFC#8, 0x00#8, 0x07#8, 0xFF#8, 0xF9#8, 0xC0#8])))
    (fun t => byteIs t 0x3002 1#8 && byteIs t 0x3004 3#8 && byteIs t 0x3006 3#8 && byteIs t 0x3007 0#8) = true := by
  decide +kernel

/-- DC-12: a mix weight of 200. -/
theorem test_cpe_weight : after (step (running .element .fetchTag (configured 4 16 2 [0x20#8, 0x00#8, 0x10#8, 0x00#8, 0x00#8,
      0x00#8, 0x02#8, 0x01#8, 0x91#8, 0xC0#8]))) (fun t => t.port.err == 3#4 && t.pos == 71) = true := by decide +kernel

/-- An LFE is an SCE (R89): the 20-bit samples of K9 with tag 3. -/
theorem test_lfe_20 : after (step (running .element .fetchTag (configured 2 20 1 [0x60#8, 0x00#8, 0x02#8, 0xFF#8, 0xFF#8,
      0xFF#8, 0xFF#8, 0xFF#8, 0xC0#8])))
    (fun t => byteIs t 0x3000 0xF0#8 && byteIs t 0x3001 0xFF#8 && byteIs t 0x3002 0x7F#8 && byteIs t 0x3003 0xF0#8) =
      true := by decide +kernel

/-- DC-5, DC-6. -/
theorem test_unsupported : after (step (running .element .fetchTag (configured 4 16 1 [0x40#8])))
      (fun t => t.port.err == 2#4 && t.pos == 3) = true ∧
    after (step (running .element .fetchTag (configured 4 16 1 [0xA0#8]))) (fun t => t.port.err == 2#4) = true := by
  decide +kernel

/-- P4: the extended gap skips 17 bytes; a skip past the end raises. -/
theorem test_gap : after (exec (.gap 15#4 (some 3#8)) ((configured 4 16 1 (List.replicate 22 0#8)).cursorAt 38))
      (fun t => t.pos == 174 && t.parser.state == .fetchTag) = true ∧
    after (exec (.gap 2#4 none) (configured 4 16 1 [0#8])) (fun t => t.port.err == 3#4 && t.pos == 16) = true := by
  decide +kernel

/-- P4: the fill aligns 190 to 192 and skips two bytes. -/
theorem test_fill : after (exec (.fill 0#4 true 2#8 none) ((configured 4 16 1 (List.replicate 30 0#8)).cursorAt 190))
    (fun t => t.pos == 208) = true := by decide +kernel

/-- DC-2, DC-3. -/
theorem test_end : after (step (running .element .fetchTag (configured 4 16 1 [0xFF#8])))
      (fun t => t.port.err == 0#4 && t.pos == 8 && t.port.done) = true ∧
    after (step (running .element .fetchTag (configured 4 16 1 [0xE0#8, 0#8])))
      (fun t => t.port.err == 3#4 && t.pos == 8) = true := by decide +kernel

/-- P5: the header loads coefficient 256; the run begins with `HISTORY` 10. -/
theorem test_adaptive : after (exec (.predAdaptive 8#4 4#3 1#5 [256#16])
      (inRun .predictor .sce .c0 8 (configured 8 16 1 [])))
    (fun t => t.ch0.coef.head? == some 256#32 && t.rice.history == 10#32 && t.stage == .residual) = true := by
  decide +kernel

/-- R94: a coefficient is sign-extended. -/
theorem test_firstDiff : after (exec (.predFirstDiff 0#4 4#3 (List.replicate 31 0xFFFF#16))
      (inRun .predictor .cpe .c0 8 (configured 8 16 2 [])))
    (fun t => t.ch0.coef.head? == some 0xFFFFFFFF#32 && t.stage == .predictor && t.chan == .c1) = true := by
  decide +kernel
theorem test_copy : after (exec (.predCopy 2#4 4#3) (inRun .predictor .cpe .c1 8 (configured 8 16 2 [])))
    (fun t => t.ch1.quant == 2#4 && t.ch1.ricemod == 4#3 && t.chan == .c0) = true := by decide +kernel
theorem test_prepass : after (exec (.predPrepass 4#4 1#4 0#3 0#5 []) (inRun .predictor .sce .c0 8 (configured 8 16 1 [])))
    (fun t => t.ch0.mode == 4#4 && t.stage == .residual) = true := by decide +kernel

/-- RICE-RUN-1, c 0: K 1, d 6, final 3, `HISTORY` 250 (pb 40: ricemod 4, multiplier 40). -/
theorem test_riceUnary : after (exec (.riceUnary 6#4 0#32)
      { inRun .residual .sce .c0 3 (configured 4 16 1 []) with ch0 := { ChanRegs.reset with ricemod := 4#3 } })
    (fun t => t.ch0.res == [3#32] && t.rice == ⟨250#32, 0#32, 1#32⟩ && t.stage == .residual) = true := by
  decide +kernel

/-- RICE-RUN-7: the history clamps. The element has another sample, so that the run goes on. -/
theorem test_riceEscape : after (exec (.riceEscape 65536#32)
      { inRun .residual .sce .c0 2 (configured 4 16 1 []) with ch0 := { ChanRegs.reset with ricemod := 4#3 } })
    (fun t => t.ch0.res == [32768#32] && t.rice.history == 0xFFFF#32) = true := by decide +kernel

/-- RICE-RUN-2: the block length 3 after the first value. -/
theorem test_zeroRun : after (exec (.zeroRun (.unary 0#4 4#32))
      { inRun .zeroRun .sce .c0 5 (configured 8 16 1 []) with ch0 := { ChanRegs.reset with res := [2#32] } })
    (fun t => t.ch0.res == [2#32, 0#32, 0#32, 0#32] && t.rice.history == 0#32 && t.rice.signMod == 1#32) = true := by
  decide +kernel

/-- RICE-RUN-4: a block of 5 in an element of 3 overruns. -/
theorem test_zeroRun_overrun : after (exec (.zeroRun (.unary 0#4 6#32))
      { inRun .zeroRun .sce .c0 3 (configured 4 16 1 []) with ch0 := { ChanRegs.reset with res := [-1#32] } })
    (fun t => t.port.err == 4#4) = true := by decide +kernel

/-- RICE-RUN-8: a negative parameter raises before any bit is read. -/
theorem test_negative_k : after (step
      { inRun .zeroRun .sce .c0 2 (configured 4 16 1 [0#8]) with rice := ⟨-30#32, 0#32, 0#32⟩ })
    (fun t => t.port.err == 3#4 && t.pos == 0) = true := by decide +kernel

/-- FIR-7, FIR-11. -/
theorem test_fir : fir 16 2 1 [0#32, 10#32, 20#32, 30#32, 5#32, -4#32] [2#32, -1#32] =
      some ([0#32, 10#32, 30#32, 55#32, 83#32, 118#32], [3#32, 0#32]) ∧
    fir 16 1 1 [10#32, 1#32, 2#32, 3#32] [1#32] = some ([10#32, 11#32, 13#32, 16#32], [3#32]) := by decide +kernel

/-- FIR-2, FIR-3, FIR-6. -/
theorem test_fir_edges : fir 16 31 0 [32767#32, 1#32, -2#32] [] = some ([32767#32, -32768#32, 32766#32], []) ∧
    fir 16 1 0 [1#32, 2#32, 3#32] [1#32] = none ∧ fir 16 1 1 [0#32, -5#32, -1#32] [32767#32] = none := by
  decide +kernel

/-- DC-11: the second of four raw samples runs past the end; the cursor stays where that read took it. -/
theorem test_truncated_raw :
    after (exec (.sce (hdr true 0 none)) ((configured 4 16 1 [0#8, 0#8, 2#8, 0#8, 2#8]).cursorAt 23))
      (fun t => t.port.err == 3#4 && t.pos == 55) = true := by decide +kernel

/-- UM-2, UM-4. -/
theorem test_unmix : unmix 2#8 1#8 100#32 (-10#32) = (100#32, 110#32) ∧ unmix 1#8 1#8 0#32 (-3#32) = (-1#32, 2#32) := by
  decide +kernel

/-- UM-5 to UM-10. -/
theorem test_containers : leBytes 2 (containerValue 16#8 0#2 40000#32 0#32) = [0x40#8, 0x9C#8] ∧
    leBytes 3 (containerValue 20#8 0#2 0x7FFFF#32 0#32) = [0xF0#8, 0xFF#8, 0x7F#8] ∧
    leBytes 3 (containerValue 24#8 2#2 0x12#32 0x3456#32) = [0x56#8, 0x34#8, 0x12#8] ∧
    leBytes 3 (containerValue 24#8 3#2 5#32 0xABCDEF#32) = [0xEF#8, 0xCD#8, 0xAB#8] ∧
    leBytes 4 (containerValue 32#8 1#2 (-1#32) 0x7F#32) = [0x7F#8, 0xFF#8, 0xFF#8, 0xFF#8] := by decide +kernel

/-- HC-8, HC-9: a `CMD` write while busy is ignored; the interrupt follows `DONE`. -/
theorem test_host_port : after (hostStep (.writeReg 0#32 4 6#32) (State.reset.withCommand 1#32))
      (fun t => t.port.cmd == 1#32) = true ∧
    after (hostStep (.writeReg 4#32 4 2#32)
      { State.reset with port := { Port.reset with done := true, irqEn := true } }) (fun t => !t.irq && !t.port.done) =
        true := by decide +kernel

/-- R73: with a cookie that begins in the frame, no command starts, BR_SEEK as little as CONFIGURE; the last byte of the cookie
before the frame is no overlap. -/
theorem test_overlap_has_no_step :
    let s := configured 4 16 1 [0xA5#8]
    let at_ (a : Word) : State := { s with port := { s.port with cookieAddr := a, cookieLen := 12#32 } }
    (match hostStep (.writeReg 0#32 4 2#32) (at_ (s.port.inAddr - 11#32)) with
      | .fault f => f == .buffersOverlap
      | _ => false) = true ∧
    (match step ((at_ (s.port.inAddr - 11#32)).withCommand 0#32) with
      | .fault f => f == .buffersOverlap
      | _ => false) = true ∧
    after (hostStep (.writeReg 0#32 4 2#32) (at_ (s.port.inAddr - 12#32))) (fun t => t.port.busy) = true := by
  decide +kernel

/-! ### States and operands that meet the hypotheses of the statements -/

/-- A coefficient table is legal when a check entry by entry says so. -/
theorem coefs_of {l : List Word} (h : (l.length == 32 && l.all coefInRange) = true) : CoefsLegal l := by
  simp only [Bool.and_eq_true, beq_iff_eq, List.all_eq_true, coefInRange, decide_eq_true_eq] at h
  exact h

/-- The input of the BitReader vectors, A5 3C FF. -/
def three : State := configured 4 16 1 [0xA5#8, 0x3C#8, 0xFF#8]

/-- A mono element of two samples, its first value read, the next one the last. -/
def lastOfTwo : State :=
  { inRun .residual .sce .c0 2 (configured 4 16 1 [0xE0#8]) with ch0 := { ChanRegs.reset with res := [3#32] } }

/-- The same in channel c of a CPE, with samples of channel 0 already there. -/
def lastOfPair (c : Ch) : State :=
  { inRun .residual .cpe c 2 (configured 4 16 2 [0xE0#8]) with
    ch0 := { ChanRegs.reset with res := [3#32], smp := [1#32, 2#32] }
    ch1 := { ChanRegs.reset with res := [5#32] } }

/-- A mono element at the start of a zero run. -/
def zeroRunDue (n : Nat) : State :=
  { inRun .zeroRun .sce .c0 n (configured 8 16 1 [0x20#8]) with ch0 := { ChanRegs.reset with res := [2#32] } }

theorem test_witness_StepRuns_command : (three.withCommand 6#32).turn = .core [] ∧
    (three.withCommand 6#32).stage = .command ∧ (three.withCommand 6#32).buffersOverlap = false := by decide +kernel

/-- A host operation whose turn it is; the last of its turns left to the core; a wait for a core that is done. -/
theorem test_witness_StepRuns_host :
    ({ three with host := [.reset, .wait] }).turn = .host .reset [.wait] ∧
      ({ three with host := [.turns 1, .reset] }).turn = .core [.turns 0, .reset] ∧
      ({ three with host := [.turns 0, .reset] }).turn = .host (.turns 0) [.reset] ∧
      ({ three with host := [.wait, .reset] }).turn = .host .wait [.reset] ∧
      ({ three.withCommand 6#32 with host := [.wait] }).turn = .core [.wait] := by decide +kernel

theorem test_witness_StepRuns_element :
    let s := running .element .fetchTag (configured 4 16 1 [0xE0#8])
    s.turn = .core [] ∧ s.dueForm = some (.element .doc) ∧ s.InputReadable ∧ s.port.inLen.toNat < 2 ^ 31 ∧
      decodeAt (.element .doc) ((List.range s.endPos).map s.streamBit) s.pos = .ok (.endElement, 3) := by decide +kernel

/-- The widest codeword: chanBits 32, and the escape takes the whole input. -/
theorem test_witness_StepRuns_codeword :
    let s := inRun .residual .sce .c0 1 (configured 1 32 1 [0xFF#8, 0xFF#8, 0xFF#8, 0xFF#8, 0xFF#8, 0x80#8])
    s.turn = .core [] ∧ s.dueForm = some (.codeword 32 1) ∧ 0 ≤ s.dueParameter.toInt ∧ s.InputReadable ∧
      s.port.inLen.toNat < 2 ^ 31 ∧
      decodeAt (.codeword 32 1) ((List.range s.endPos).map s.streamBit) s.pos = .ok (.riceEscape 0xFFFFFFFF#32, 41) := by
  decide +kernel

theorem test_witness_StepRuns_zeroRun :
    let s := zeroRunDue 5
    s.turn = .core [] ∧ s.dueForm = some (.zeroRun 4) ∧ 0 ≤ s.dueParameter.toInt ∧ s.InputReadable ∧
      s.port.inLen.toNat < 2 ^ 31 ∧
      decodeAt (.zeroRun 4) ((List.range s.endPos).map s.streamBit) s.pos = .ok (.zeroRun (.unary 0#4 4#32), 5) := by
  decide +kernel

/-- An element of an empty input; a codeword whose suffix the input cuts short. -/
theorem test_witness_StepRuns_truncated :
    (let s := running .element .fetchTag (configured 4 16 1 [])
     s.turn = .core [] ∧ s.dueForm = some (.element .doc) ∧ s.InputReadable ∧ s.pos ≤ s.endPos ∧
       decodeAt (.element .doc) ((List.range s.endPos).map s.streamBit) s.pos = .error .truncated) ∧
    (let s := (zeroRunDue 5).cursorAt 5
     s.dueForm = some (.zeroRun 4) ∧ s.InputReadable ∧ s.pos ≤ s.endPos ∧
       decodeAt (.zeroRun 4) ((List.range s.endPos).map s.streamBit) s.pos = .error .truncated) := by decide +kernel

/-- A history that has wrapped below 0: `K` is -1, and the parameter of a zero run is negative; an idle core. -/
theorem test_witness_StepRuns_badParameter :
    (let s := { lastOfTwo with rice := { lastOfTwo.rice with history := -1500#32 } }
     s.turn = .core [] ∧ s.stage = .residual ∧ s.dueParameter.toInt = -1) ∧
    (let s := { zeroRunDue 5 with rice := { lastOfTwo.rice with history := -1#32 } }
     s.turn = .core [] ∧ s.stage = .zeroRun ∧ s.dueParameter.toInt < 0) ∧
    (State.reset.turn = .core [] ∧ State.reset.stage = .idle) := by decide +kernel

theorem test_witness_DecodeOfEncode :
    (Instr.predFirstDiff 15#4 7#3 (List.replicate 31 0x8000#16)).wf .predictor = true ∧
      (Instr.gap 15#4 (some 255#8)).wf (.element .swapped) = true ∧
      (Instr.reservedOp 0xFFFFFFFF#32).wf .command = true := by decide +kernel

theorem test_witness_DecodeOfEncodeCodeword : (Codeword.unary 8#4 0x7FFFFFFF#32).wf 32 31 = true ∧
    (Codeword.escape 0xFFFFFFFF#32).wf 32 0 = true ∧ (Codeword.escape 0xFFFF#32).wf 16 31 = true ∧ [true] ≠ [] := by
  decide +kernel

theorem test_witness_DecodedIsWellFormed :
    decodeAt (.codeword 32 31) (List.replicate 41 true) 0 = .ok (.riceEscape 0xFFFFFFFF#32, 41) := by decide +kernel

/-- The invariant holds with a command about to run. -/
theorem test_witness_inv_command : (three.withCommand 3#32).Inv where
  mem := by decide +kernel
  cfg := by decide +kernel
  coef0 := coefs_of (by decide +kernel)
  coef1 := coefs_of (by decide +kernel)
  busy := by decide +kernel
  notDone := by decide +kernel
  apart := by decide +kernel
  err := by decide +kernel
  signMod := by decide +kernel
  parser := by decide +kernel
  frame := fun h => absurd h (by decide +kernel)
  element := fun h => absurd h (by decide +kernel)
  run := by decide +kernel

/-- The invariant holds inside a channel run. -/
theorem test_witness_inv_run : lastOfTwo.Inv where
  mem := by decide +kernel
  cfg := by decide +kernel
  coef0 := coefs_of (by decide +kernel)
  coef1 := coefs_of (by decide +kernel)
  busy := by decide +kernel
  notDone := by decide +kernel
  apart := by decide +kernel
  err := by decide +kernel
  signMod := by decide +kernel
  parser := by decide +kernel
  frame := fun _ =>
    { op := by decide +kernel
      ready := by decide +kernel
      inside := by decide +kernel
      positive := by decide +kernel
      channels := by decide +kernel
      hwm := by decide +kernel }
  element := fun _ =>
    { count := by decide +kernel
      channels := by decide +kernel
      kmod := by decide +kernel
      bitsLow := by decide +kernel
      bitsHigh := by decide +kernel
      second := by decide +kernel }
  run := by decide +kernel

theorem test_witness_StepKeepsInvariant :
    (∃ t, step (three.withCommand 3#32) = .next t) ∧ ∃ t, step lastOfTwo = .next t :=
  ⟨next_of (by decide +kernel), next_of (by decide +kernel)⟩

/-- The last codeword writes output; the first byte after `FRAME_BYTES_MAX` is outside. -/
theorem test_witness_CoreWritesOnlyOutput :
    (∃ t, coreStep lastOfTwo = .next t) ∧
      lastOfTwo.frameBytesMax.toNat = (0x3008#32 - lastOfTwo.port.outAddr).toNat ∧
      (0x2000#32 - lastOfTwo.port.inAddr).toNat < lastOfTwo.port.inLen.toNat :=
  ⟨next_of (by decide +kernel), by decide +kernel, by decide +kernel⟩

theorem test_witness_WhoWritesWhat : ∃ t, exec (.lzc 0#6 0#6) three = .next t := next_of (by decide +kernel)

theorem test_witness_CommandEndIsReported :
    (∃ t, exec (.lzc 0#6 0#6) three = .next t ∧ (t.stage == .idle) = true) ∧
      ∃ t, exec (.decode 0#6 0#6) three = .next t ∧ (t.stage != .idle) = true :=
  ⟨next_with (by decide +kernel), next_with (by decide +kernel)⟩

theorem test_witness_EveryFrameEnds : lastOfTwo.host = [] := by decide +kernel

/-- Two cores that differ in their cursor, Rice and parser registers, tables and scratch. -/
theorem test_witness_NoStateBetweenFrames :
    let s := three.withCommand 1#32
    let s' := { lastOfTwo with cfg := s.cfg, port := s.port, mem := s.mem, stage := .command, cursor := ⟨1#32, 2#3⟩ }
    s.cfg = s'.cfg ∧ s.port = s'.port ∧ s.mem = s'.mem ∧ s.params = s'.params ∧ s.stage = .command ∧
      s'.stage = .command ∧ s.op = 1#4 ∧ s.host = [] ∧ s'.host = [] ∧ s ≠ s' := by decide +kernel

theorem test_witness_CmdWriteStartsCommand : three.port.busy = false ∧ three.buffersOverlap = false ∧ (three.withCommand 1#32).port.busy = true ∧
    0xFC < 256 ∧ 0xFC % 4 = 0 := by decide +kernel

theorem test_witness_RegistersReadBack : three.port.busy = false ∧ three.buffersOverlap = false ∧ 0xFC < 256 ∧ 0xFC % 4 = 0 ∧
    0x34 ∈ [0x0C, 0x10, 0x14, 0x18, 0x1C, 0x20, 0x28, 0x34] ∧ 0x4C ≤ 0xFC ∧ (three.withCommand 1#32).port.busy = true ∧
    0x38 < 256 ∧ 0x38 % 4 = 0 ∧
    (let s := three.withCommand 1#32
     s.mem.unserved = [] ∧ s.port.inLen.toNat ≤ (0x2003#32 - s.port.inAddr).toNat ∧
       s.port.outCap.toNat ≤ (0x4000#32 - s.port.outAddr).toNat ∧ s.port.cookieLen.toNat ≤ (0#32 - s.port.cookieAddr).toNat ∧
       s.port.outCap.toNat ≤ (0x2002#32 - s.port.outAddr).toNat ∧ s.mem.read 0x2002#32 = some 0xFF#8) := by decide +kernel

theorem test_witness_StatusAndInterrupt : (2#32).getLsbD 1 = true ∧ (0xFFFFFFFD#32).getLsbD 1 = false := by decide +kernel

/-- A narrow access, a misaligned one, the first offset past the block; the last byte of each buffer. -/
theorem test_witness_HostDutiesBrokenStop :
    2 ≠ 4 ∧ (2#32 - three.params.coreBase).toNat % 4 ≠ 0 ∧ 256 ≤ (256#32 - three.params.coreBase).toNat ∧
      (let s := (withK1 12).withCommand 0#32
       s.port.busy = true ∧ (0x100B#32 - s.port.cookieAddr).toNat < s.port.cookieLen.toNat) ∧
      (let s := three.withCommand 1#32
       s.port.busy = true ∧ (0x2002#32 - s.port.inAddr).toNat < s.port.inLen.toNat ∧
         (0x3FFF#32 - s.port.outAddr).toNat < s.port.outCap.toNat) := by decide +kernel

/-- The first values outside each column of R82. -/
theorem test_witness_BadCommandWordsRaise : (1#6 ≠ 0#6 ∨ 0#6 ≠ 0#6) ∧ (0#6 ≠ 0#6 ∨ 1#6 ≠ 0#6) ∧
    (32 < (33#6).toNat ∨ 0#6 ≠ 0#6) ∧ (0#6 = 0#6 ∨ 32 < (0#6).toNat ∨ 31 < (0#6).toNat) ∧
    (33#6 = 0#6 ∨ 32 < (33#6).toNat ∨ 31 < (0#6).toNat) ∧ (1#6 = 0#6 ∨ 32 < (1#6).toNat ∨ 31 < (32#6).toNat) := by
  decide +kernel

/-- A state with a cookie of the given bytes. -/
def withCookie (len : Nat) (b : Nat → Byte) : State :=
  { State.reset with
    port := { Port.reset with cookieAddr := 0x1000#32, cookieLen := BitVec.ofNat 32 len }
    mem := State.reset.mem.place 0x1000#32 ((List.range 10).map b) }

/-- The cookie with the given frame size (below 65536), depth and channel count. -/
def cookie (ms depth ch : Nat) (j : Nat) : Byte :=
  if j = 2 then BitVec.ofNat 8 (ms / 256) else if j = 3 then BitVec.ofNat 8 ms
  else if j = 5 then BitVec.ofNat 8 depth else if j = 9 then BitVec.ofNat 8 ch else 0#8

/-- Both ends of the legal ranges. -/
theorem test_witness_ConfigureLoadsCookie :
    (let s := withCookie 12 (cookie 16364 32 8)
     let b := cookie 16364 32 8
     12 ≤ s.port.cookieLen.toNat ∧ (∀ j < 10, s.mem.read (s.port.cookieAddr + BitVec.ofNat 32 j) = some (b j)) ∧
       (b 0).toNat * 2 ^ 24 + (b 1).toNat * 2 ^ 16 + (b 2).toNat * 2 ^ 8 + (b 3).toNat = 16364 ∧ b 4 = 0#8 ∧
       (b 5).toNat ∈ [16, 20, 24, 32] ∧ (b 9).toNat = 8) ∧
    (let s := withCookie 12 (cookie 1 16 1)
     let b := cookie 1 16 1
     12 ≤ s.port.cookieLen.toNat ∧ (∀ j < 10, s.mem.read (s.port.cookieAddr + BitVec.ofNat 32 j) = some (b j)) ∧
       (b 0).toNat * 2 ^ 24 + (b 1).toNat * 2 ^ 16 + (b 2).toNat * 2 ^ 8 + (b 3).toNat = 1 ∧ b 4 = 0#8 ∧
       (b 5).toNat ∈ [16, 20, 24, 32] ∧ (b 9).toNat = 1) := by decide +kernel

/-- The first values outside the legal ranges. -/
theorem test_witness_ConfigureRejectsCookie :
    (withCookie 11 (cookie 4 16 1)).port.cookieLen.toNat < 12 ∧
    (let s := withCookie 12 (cookie 16365 18 9)
     let b := cookie 16365 18 9
     (∀ j < 10, s.mem.read (s.port.cookieAddr + BitVec.ofNat 32 j) = some (b j)) ∧
       16364 < (b 0).toNat * 2 ^ 24 + (b 1).toNat * 2 ^ 16 + (b 2).toNat * 2 ^ 8 + (b 3).toNat ∧
       (b 5).toNat ∉ [16, 20, 24, 32] ∧ 8 < (b 9).toNat) ∧
    (let s := withCookie 12 (cookie 0 16 0)
     let b := cookie 0 16 0
     (∀ j < 10, s.mem.read (s.port.cookieAddr + BitVec.ofNat 32 j) = some (b j)) ∧
       (b 0).toNat * 2 ^ 24 + (b 1).toNat * 2 ^ 16 + (b 2).toNat * 2 ^ 8 + (b 3).toNat = 0 ∧ b 9 = 0#8) := by
  decide +kernel

/-- The output buffer exactly large enough. -/
theorem test_witness_DecodeStartsFrame :
    let s := { three with port := { three.port with outCap := 8#32 } }
    s.cfg.Legal ∧ s.cfg.configured = true ∧
      s.cfg.maxSamples.toNat * s.cfg.numCh.toNat * bytesPerSample s.cfg.bits = s.port.outCap.toNat ∧
      (∀ c < s.cfg.numCh.toNat, s.port.chmap.toNat / 16 ^ c % 16 < s.cfg.numCh.toNat) := by
  decide +kernel

/-- One byte too few (HC-6); no configuration; a map entry equal to C; an output buffer that begins in the frame. -/
theorem test_witness_DecodePreconditions :
    (let s := { three with port := { three.port with outCap := 7#32 } }
     s.cfg.Legal ∧ s.port.outCap.toNat < s.cfg.maxSamples.toNat * s.cfg.numCh.toNat * bytesPerSample s.cfg.bits) ∧
    (State.reset.cfg.Legal ∧ State.reset.cfg.configured = false) ∧
    (let s := { three with port := { three.port with chmap := 1#32 } }
     s.cfg.Legal ∧ ∃ c < s.cfg.numCh.toNat, s.cfg.numCh.toNat ≤ s.port.chmap.toNat / 16 ^ c % 16) ∧
    (let s := { three with port := { three.port with outAddr := 0x2002#32 } }
     s.port.busy = false ∧ s.buffersOverlap = true ∧ (s.withCommand 2#32).turn = .core [] ∧
       (s.withCommand 2#32).buffersOverlap = true) ∧
    (three.cfg.Legal ∧ three.decodeReady = true) := by decide +kernel

theorem test_witness_LoneEndDecodes :
    let s := (configured 4 16 1 [0xE0#8]).withCommand 1#32
    s.stage = .command ∧ s.host = [] ∧ s.port.cmd = 1#32 ∧ s.decodeReady = true ∧ s.buffersOverlap = false ∧
      s.port.inLen = 1#32 ∧ s.mem.read s.port.inAddr = some 0xE0#8 ∧ (0xE0#8).toNat / 32 = 7 := by decide +kernel

/-- 24 bits that end at the end of the input; one bit; no bit at the end. -/
theorem test_witness_ReadBitsValue : three.CanRead 24 ∧ three.CanRead 1 ∧ (three.cursorAt 24).CanRead 0 := by
  decide +kernel

/-- One bit past the end; a long read whose first half is inside; one whose first half is not. -/
theorem test_witness_ReadPastTheEnd :
    (three.cursorAt 20).InputReadable ∧ (three.cursorAt 20).pos ≤ (three.cursorAt 20).endPos ∧
      (three.cursorAt 20).endPos < 2 ^ 34 ∧ (three.cursorAt 20).endPos < (three.cursorAt 20).pos + 5 ∧
      three.endPos < three.pos + 25 ∧ (three.cursorAt 24).endPos < (three.cursorAt 24).pos + (32 - 16) := by
  decide +kernel

theorem test_witness_RewindLaw : three.CanRead 12 ∧ readBits 12 three = .ok 0xA53#32 (three.cursorAt 12) := by
  decide +kernel

/-- BR-15, BR-17, and a move that ends at the end. -/
theorem test_witness_AdvanceAndAlign : three.pos + 24 ≤ three.endPos ∧ three.pos + 24 < 2 ^ 34 ∧
    (three.cursorAt 4).endPos < (three.cursorAt 4).pos + 21 ∧ (three.cursorAt 4).pos + 21 < 2 ^ 34 ∧
    (three.cursorAt 19).pos ≤ (three.cursorAt 19).endPos ∧ (three.cursorAt 25).endPos < (three.cursorAt 25).pos ∧
    (three.cursorAt 25).pos + 7 < 2 ^ 34 := by decide +kernel

theorem test_witness_BrReadReadsBits : (32#6).toNat ≤ 32 ∧ 32 < (33#6).toNat ∧
    (configured 4 16 1 [0xFF#8, 0xFF#8, 0xFF#8, 0xFF#8]).CanRead (32#6).toNat ∧ (three.cursorAt 23).CanRead 1 ∧
    (three.InputReadable ∧ three.pos ≤ three.endPos ∧ three.endPos < 2 ^ 34 ∧ three.endPos < three.pos + (25#6).toNat) ∧
    (three.cursorAt 24).pos = (three.cursorAt 24).endPos := by
  decide +kernel

theorem test_witness_UnitTestFrame : ∃ t, exec (.brRead 4#6 0#6) three = .next t := next_of (by decide +kernel)

/-- Eight ones and the zero with k = 1; a suffix of 5 (RV-5); a suffix of 1 (RV-6); k = 0 (RV-1). -/
theorem test_witness_RiceValueUnary :
    (let s := configured 4 16 1 [0xFF#8, 0x00#8]
     s.CanRead (8 + 1) ∧ (∀ t < 8, s.streamBit (s.pos + t) = true) ∧ s.streamBit (s.pos + 8) = false) ∧
    (let s := configured 4 16 1 [0xA8#8]
     s.CanRead (1 + 1 + 3) ∧ (∀ t < 1, s.streamBit (s.pos + t) = true) ∧ s.streamBit (s.pos + 1) = false ∧
       1 < s.streamNat (s.pos + 1 + 1) (3#6).toNat) ∧
    (let s := configured 4 16 1 [0x88#8]
     s.CanRead (1 + 1 + 3) ∧ (∀ t < 1, s.streamBit (s.pos + t) = true) ∧ s.streamBit (s.pos + 1) = false ∧
       s.streamNat (s.pos + 1 + 1) (3#6).toNat ≤ 1) ∧
    (let s := configured 4 16 1 [0x00#8]
     s.CanRead (0 + 1 + 0) ∧ s.streamBit (s.pos + 0) = false ∧ s.streamNat (s.pos + 0 + 1) (0#6).toNat ≤ 1) ∧
    (let s := configured 4 16 1 [0xFF#8]
     s.InputReadable ∧ s.endPos < 2 ^ 34 ∧ s.pos + 8 = s.endPos ∧ ∀ t < 8, s.streamBit (s.pos + t) = true) ∧
    (let s := configured 4 16 1 [0xFE#8]
     s.InputReadable ∧ s.pos + 7 < s.endPos ∧ (∀ t < 7, s.streamBit (s.pos + t) = true) ∧
       s.streamBit (s.pos + 7) = false ∧ s.endPos < s.pos + 7 + 1 + (31#6).toNat) := by
  decide +kernel

theorem test_witness_RiceValueEscape :
    (let s := configured 4 16 1 [0xFF#8, 0xFF#8, 0xFF#8, 0xFF#8, 0xFF#8, 0x80#8]
     s.CanRead (9 + (32#6).toNat) ∧ ∀ t < 9, s.streamBit (s.pos + t) = true) ∧
    (let s := configured 4 16 1 [0xFF#8, 0x80#8]
     s.InputReadable ∧ s.endPos < 2 ^ 34 ∧ s.pos + 9 ≤ s.endPos ∧ s.endPos < s.pos + 9 + (8#6).toNat ∧
       ∀ t < 9, s.streamBit (s.pos + t) = true) := by decide +kernel

theorem test_witness_RiceParameters : (0x7FFFFFFF#32).toNat < 2 ^ 31 ∧ 127 < 128 ∧ (0xFFFFFFFF#32).toInt < 0 := by
  decide +kernel

theorem test_witness_RiceArithmetic : (0x7FFFFFFE#32).toNat < 2 ^ 31 - 1 ∧
    (let pb := (4#3).toNat * (40#8).toNat / 4
     (10#32).toNat * pb < 2 ^ 31 ∧ (10#32).toNat + (65536#32).toNat * pb < 2 ^ 31 ∧ 0xFFFF < (65536#32).toNat) := by
  decide +kernel

theorem test_witness_ResidualStored :
    let s := inRun .residual .sce .c0 2 three
    (s.ch s.chan).res.length + 1 < s.parser.n.toNat := by decide +kernel

/-- A run that leaves one value; a run one too long. -/
theorem test_witness_ZeroRunStored :
    (let s := zeroRunDue 5
     let bs := (s.blockLength (.unary 0#4 4#32)).toNat
     bs ≤ 0xFFFF ∧ (s.ch s.chan).res.length + bs + 1 = s.parser.n.toNat) ∧
    (let s := zeroRunDue 3
     let bs := (s.blockLength (.unary 0#4 4#32)).toNat
     1 ≤ bs ∧ bs < 2 ^ 31 ∧ s.parser.n.toNat + 1 = (s.ch s.chan).res.length + bs) := by decide +kernel

/-- The last residual of a mono element; a zero run that ends a mono element; the predictor succeeds, with one pass and with two;
and one that raises (R190: one coefficient, quantization 0, three samples). -/
theorem test_witness_LastResidualEndsElement :
    (∃ s', CompletesChannel lastOfTwo (residualOf (.unary 1#4 0#32)) s') ∧
    (∃ s', CompletesChannel (zeroRunDue 4) (.zeroRun (.unary 0#4 4#32)) s') ∧
    (lastOfTwo.nch = 1 ∧ (zeroRunDue 4).nch = 1 ∧ (lastOfPair .c1).chan = .c1 ∧ lastOfTwo.mem.unserved = [] ∧
      (zeroRunDue 4).mem.unserved = []) ∧
    ({ ChanRegs.reset with res := [3#32, 1#32] }.predicted 16 = some { ChanRegs.reset with res := [3#32, 1#32], smp := [3#32, 1#32] } ∧
      { ChanRegs.reset with mode := 1#4, res := [3#32, 1#32] }.predicted 16 =
        some { ChanRegs.reset with mode := 1#4, res := [3#32, 4#32], smp := [3#32, 4#32] }) ∧
    { ChanRegs.reset with ncoef := 1#5, res := [3#32, 1#32, 1#32] }.predicted 16 = none :=
  ⟨⟨_, .inl ⟨.unary 1#4 0#32, rfl, by decide +kernel, rfl⟩⟩,
    ⟨_, .inr ⟨.unary 0#4 4#32, rfl, by decide +kernel, by decide +kernel, rfl⟩⟩,
    by decide +kernel, by decide +kernel, by decide +kernel⟩

theorem test_witness_FirstChannelThenSecond :
    (∃ s', CompletesChannel (lastOfPair .c0) (residualOf (.unary 1#4 0#32)) s') ∧ (lastOfPair .c0).chan = .c0 ∧
      (lastOfPair .c0).parser.state = .cpe ∧ (lastOfPair .c0).parser.n ≠ 0#32 :=
  ⟨⟨_, .inl ⟨.unary 1#4 0#32, rfl, by decide +kernel, rfl⟩⟩, by decide +kernel⟩

theorem test_witness_FirSpecialCases : 1 + 2 ≤ [1#32, 2#32, 3#32].length ∧ [1#32, 2#32].length ≤ 1 + 1 := by decide

theorem test_witness_FirRanges : fir 16 2 1 [0#32, 10#32, 20#32, 30#32] [2#32, -1#32] =
    some ([0#32, 10#32, 30#32, 55#32], [3#32, 0#32]) ∧ CoefsLegal (List.replicate 32 32767#32) :=
  ⟨by decide +kernel, coefs_of (by decide +kernel)⟩

theorem test_witness_FirIsTheIndexedAlgorithm :
    [7#32, 7#32].length = [1#32, 2#32].length ∧ (List.replicate 32 0#32).length = 32 := by decide +kernel

theorem test_witness_UnmixFormula : 0#8 = 0#8 ∧ 127#8 ≠ 0#8 ∧
    (let s := { lastOfTwo with ch0 := { ChanRegs.reset with smp := [7#32], low := [9#32] } }
     s.parser.state ≠ .cpe ∧ s.ch0.smp[0]? = some 7#32 ∧ s.ch0.low[0]? = some 9#32) ∧
    (let s := { lastOfPair .c1 with ch0 := { ChanRegs.reset with low := [9#32] }, ch1 := { ChanRegs.reset with low := [5#32] } }
     s.parser.state = .cpe ∧ s.ch0.low[0]? = some 9#32 ∧ s.ch1.low[0]? = some 5#32) ∧
    (let s := { lastOfPair .c1 with ch1 := { ChanRegs.reset with smp := [7#32, 8#32] } }
     s.parser.state = .cpe ∧ s.ch0.smp[1]? = some 2#32 ∧ s.ch1.smp[1]? = some 8#32) := by decide +kernel

theorem test_witness_ContainerBytes : three.cfg.Legal ∧ three.cfg.configured = true ∧ State.reset.cfg.Legal := by
  decide +kernel

/-- A stereo element of two samples that can be written; the last byte of the last sample of channel 1. -/
theorem test_witness_OutputReadsBack :
    let s := { lastOfPair .c1 with ch1 := { ChanRegs.reset with smp := [7#32, 8#32] } }
    s.cfg.Legal ∧ s.decodeReady = true ∧ s.parser.n.toNat ≤ s.cfg.maxSamples.toNat ∧
      s.parser.ci + s.nch ≤ s.cfg.numCh.toNat ∧ (finishElement s matches .ok _ _) = true ∧ 1 < s.parser.n.toNat ∧
      1 < s.bps ∧ (s.channelValues 1)[1]? = some 8#32 ∧ ((s.lowValues 1)[1]?).isSome = true ∧
      s.slot s.parser.ci ≠ s.slot (s.parser.ci + 1) := by decide +kernel

theorem test_witness_SkipElements :
    let s := (configured 4 16 1 (List.replicate 22 0#8)).cursorAt 40
    s.pos ≤ s.endPos ∧ s.pos + 8 * (15 + 3 - 1) = s.endPos ∧ s.pos + 8 * (15 + 3 - 1) < 2 ^ 34 := by decide +kernel

/-- At the boundary of the last byte, and with a byte left over. -/
theorem test_witness_EndChecksTrailingBytes :
    ((three.cursorAt 17).pos + 7) / 8 * 8 < 2 ^ 34 ∧ (three.cursorAt 17).pos ≤ (three.cursorAt 17).endPos ∧
      ((three.cursorAt 17).pos + 7) / 8 * 8 = (three.cursorAt 17).endPos ∧
      ((three.cursorAt 16).pos + 7) / 8 * 8 ≠ (three.cursorAt 16).endPos := by decide +kernel

/-- A count one too large; a CPE in a mono stream; `UB` in a 16-bit stream; chanBits 0 and 33. -/
theorem test_witness_AudioHeaderChecks :
    (Instr.cpe (hdr false 0 (some 5)), ParserState.cpe, 2) ∈ audioForms (hdr false 0 (some 5)) ∧
      three.cfg.maxSamples.toNat < (5#32).toNat ∧ three.cfg.numCh.toNat < three.parser.ci + 2 ∧
      ((hdr false 1 none).ub ≠ 0#2 ∧ three.cfg.bits.toNat < 24) ∧
      ((configured 4 24 1 []).cfg.bits.toNat : Int) - 8 * (hdr false 3 none).ub.toNat + (1 - 1) < 1 ∧
      32 < ((configured 4 32 2 []).cfg.bits.toNat : Int) - 8 * (hdr false 0 none).ub.toNat + (2 - 1) := by
  decide +kernel

/-- Weight 127 and shift 31 (P6 has 2 and 1); weight 128; weight 1 and shift 32; `CFG_KMOD` 32; chanBits 32 and 1; fields that the
input cuts short, the first and the second. -/
theorem test_witness_CompressedElementBegins :
    (let s := configured 4 16 2 [31#8, 127#8]
     s.parser.ci + 2 ≤ s.cfg.numCh.toNat ∧ s.CanRead 16 ∧ s.streamNat s.pos 8 = 31 ∧ s.streamNat (s.pos + 8) 8 = 127) ∧
    (let s := configured 4 16 2 [0#8, 128#8]
     s.CanRead 16 ∧ 128 ≤ s.streamNat (s.pos + 8) 8) ∧
    (let s := configured 4 16 2 [32#8, 1#8]
     s.CanRead 16 ∧ s.streamNat (s.pos + 8) 8 ≠ 0 ∧ 32 ≤ s.streamNat s.pos 8) ∧
    (let s := { configured 4 16 2 [0#8, 0#8] with cfg := ⟨4#32, 16#8, 40#8, 10#8, 32#8, 2#8, true⟩ }
     s.CanRead 16 ∧ 32 ≤ s.cfg.kmod.toNat) ∧
    (let s := three.cursorAt 17
     s.InputReadable ∧ s.pos ≤ s.endPos ∧ s.endPos < 2 ^ 34 ∧ s.endPos < s.pos + 8) ∧
    (let s := three.cursorAt 16
     s.InputReadable ∧ ¬s.endPos < s.pos + 8 ∧ s.endPos < s.pos + 16) ∧
    ((configured 4 32 1 []).cfg.bits.toNat : Int) - 8 * (hdr false 0 none).ub.toNat + (1 - 1) = 32 ∧
    ((configured 4 24 2 []).cfg.bits.toNat : Int) - 8 * (hdr false 3 none).ub.toNat + (2 - 1) = 1 := by decide +kernel

/-- One 32-bit sample; no sample at all; an input one bit short of a sample. -/
theorem test_witness_RawMonoElement :
    let s := configured 1 32 1 [0x80#8, 0x00#8, 0x00#8, 0x01#8]
    ((s.cursorAt 1).InputReadable ∧ (s.cursorAt 1).pos ≤ (s.cursorAt 1).endPos ∧ (s.cursorAt 1).endPos < 2 ^ 34 ∧
      (s.cursorAt 1).endPos < (s.cursorAt 1).pos + 1 * 32) ∧
    (hdr true 0 none).esc = true ∧ s.cfg.Legal ∧ s.cfg.configured = true ∧ s.parser.ci + 1 ≤ s.cfg.numCh.toNat ∧
      s.mem.unserved = [] ∧ s.CanRead (1 * 32) ∧ s.CanRead (0 * 32) := by decide +kernel

/-- A 16-bit pair, where the default defect applies, and a 24-bit pair, where it does not; an input one bit short of the pair. -/
theorem test_witness_RawStereoElement :
    (let s := configured 1 16 2 [0#8, 1#8, 0xFF#8, 0xFE#8]
     s.cfg.Legal ∧ s.cfg.configured = true ∧ s.parser.ci + 2 ≤ s.cfg.numCh.toNat ∧ s.mem.unserved = [] ∧
       s.CanRead (1 * (2 * 16)) ∧ s.params.escBug = .le16 ∧ s.cfg.bits.toNat ≤ 16 ∧
       s.slot s.parser.ci < s.cfg.numCh.toNat ∧ s.slot (s.parser.ci + 1) < s.cfg.numCh.toNat ∧
       s.slot s.parser.ci ≠ s.slot (s.parser.ci + 1)) ∧
    (let s := configured 1 24 2 [0x12#8, 0x34#8, 0x56#8, 0xFF#8, 0xFF#8, 0xFE#8]
     s.cfg.Legal ∧ s.CanRead (1 * (2 * 24)) ∧ ¬s.cfg.bits.toNat ≤ 16 ∧ (s.cursorAt 1).InputReadable ∧
       (s.cursorAt 1).pos ≤ (s.cursorAt 1).endPos ∧ (s.cursorAt 1).endPos < (s.cursorAt 1).pos + 1 * (2 * 24)) := by
  decide +kernel

/-- Channel 0 of a CPE, an SCE, channel 1 of a CPE, an element of no samples. -/
theorem test_witness_PredictorHeaderLoads :
    headerOf (.predAdaptive 8#4 4#3 1#5 [256#16]) = some (0#4, 8#4, 4#3, 1#5, [256#16]) ∧
      (Instr.predAdaptive 8#4 4#3 1#5 [256#16]).wf .predictor = true ∧
      ((inRun .predictor .cpe .c0 4 three).chan = .c0 ∧ (inRun .predictor .cpe .c0 4 three).parser.state = .cpe) ∧
      ((inRun .predictor .sce .c0 4 three).parser.state ≠ .cpe ∧ (inRun .predictor .sce .c0 4 three).parser.ub = 0#2 ∧
        (inRun .predictor .sce .c0 4 three).parser.n ≠ 0#32) ∧
      ((inRun .predictor .cpe .c1 4 three).chan = .c1 ∧ (inRun .predictor .cpe .c1 4 three).parser.n ≠ 0#32) ∧
      (inRun .predictor .sce .c0 0 three).parser.n = 0#32 := by decide +kernel

/-- A CPE of one sample with three bytes of low bits for each channel; an input one bit short of them. -/
theorem test_witness_LowPlanesAreRead :
    let s := inRun .predictor .cpe .c1 1 (configured 1 32 2 [1#8, 2#8, 3#8, 4#8, 5#8, 6#8])
    let s := { s with parser := { s.parser with ub := 3#2 } }
    headerOf (.predCopy 0#4 4#3) = some (0#4, 0#4, 4#3, 0#5, []) ∧ (Instr.predCopy 0#4 4#3).wf .predictor = true ∧
      s.chan = .c1 ∧ s.parser.ub ≠ 0#2 ∧ s.parser.n ≠ 0#32 ∧
      s.CanRead (s.parser.n.toNat * (s.nch * (8 * s.parser.ub.toNat))) ∧ (s.cursorAt 1).InputReadable ∧
      (s.cursorAt 1).pos ≤ (s.cursorAt 1).endPos ∧
      (s.cursorAt 1).endPos < (s.cursorAt 1).pos + s.parser.n.toNat * (s.nch * (8 * s.parser.ub.toNat)) := by decide +kernel

/-- An audio element, a header and a codeword that answer a next state; the byte after the last sample. -/
theorem test_witness_ElementMemoryFrame :
    (∃ t, exec (.sce (hdr true 0 (some 1))) three = .next t) ∧
      (Instr.sce (hdr true 0 (some 1)), ParserState.sce, 1) ∈ audioForms (hdr true 0 (some 1)) ∧
      (∃ t, exec (.predCopy 0#4 4#3) (inRun .predictor .sce .c0 2 three) = .next t) ∧
      (∃ t, exec (.riceUnary 1#4 0#32) lastOfTwo = .next t ∧ (t.stage == .element) = true) ∧
      ∀ j < 2, ∀ ch < 1, ∀ k < lastOfTwo.bps,
        0x3004#32 ≠ lastOfTwo.sampleAddr j (lastOfTwo.parser.ci + ch) + BitVec.ofNat 32 k :=
  ⟨next_of (by decide +kernel), by decide +kernel, next_of (by decide +kernel), next_with (by decide +kernel),
    by decide +kernel⟩

theorem test_witness_DecoderRegisterFrame :
    (∃ t, exec (.sce (hdr true 0 (some 1))) three = .next t ∧ (t.stage != .idle) = true) ∧
      ∃ t, exec (.riceUnary 1#4 0#32) (lastOfPair .c1) = .next t ∧ (t.stage != .idle) = true :=
  ⟨next_with (by decide +kernel), next_with (by decide +kernel)⟩

/-- A GAP of no bytes moves the cursor by its seven bits. -/
theorem test_witness_CursorOnlyMovesForward :
    let s := running .element .fetchTag (configured 4 16 1 [0x80#8])
    s.stage = .element ∧ ∃ t, coreStep s = .next t ∧ (t.port.err == 0#4) = true :=
  ⟨by decide +kernel, next_with (by decide +kernel)⟩

end Sys2Proof.Tests
end

section
/-! The host's side of the machine (family 20_memory.md): where a register access lands, what a register write does to a busy
core and to one that is not, and which host memory writes have no step. -/

namespace Sys2Proof.Machine

/-! ### Register accesses -/

/-- An aligned 32-bit access inside the block lands on its offset: `CORE_BASE + off` wraps modulo 2^32 and back (R61). -/
theorem State.regOffset_coreBase_add (s : State) {off : Nat} (hlt : off < 256) (hal : off % 4 = 0) :
    s.regOffset (s.params.coreBase + BitVec.ofNat 32 off) 4 = some off := by
  have hoff : (s.params.coreBase + BitVec.ofNat 32 off - s.params.coreBase).toNat = off := by
    rw [add_sub_cancel_left, BitVec.toNat_ofNat, Nat.mod_eq_of_lt (by omega)]
  simp only [State.regOffset, hoff]
  exact if_pos ⟨trivial, hlt, hal⟩

/-- `CMD` is the register at `CORE_BASE` itself (R24). -/
theorem State.regOffset_coreBase (s : State) : s.regOffset s.params.coreBase 4 = some 0 := by
  simpa using s.regOffset_coreBase_add (off := 0) (by decide) (by decide)

/-- An access has no offset exactly when it is not 32 bits wide, not aligned, or outside the 256 bytes (R60, R67). -/
theorem State.regOffset_eq_none_iff (s : State) (addr : Word) (width : Nat) :
    s.regOffset addr width = none ↔
      width ≠ 4 ∨ (addr - s.params.coreBase).toNat % 4 ≠ 0 ∨ 256 ≤ (addr - s.params.coreBase).toNat := by
  rw [State.regOffset, ite_eq_right_iff, imp_iff_not (Option.some_ne_none _)]
  omega

theorem hostStep_writeReg_of_some {s : State} {addr : Word} {width off : Nat} (v : Word)
    (h : s.regOffset addr width = some off) : hostStep (.writeReg addr width v) s = s.hostWriteReg off v := by
  simp only [hostStep, h]

theorem hostStep_writeReg_of_none {s : State} {addr : Word} {width : Nat} (v : Word)
    (h : s.regOffset addr width = none) : hostStep (.writeReg addr width v) s = .fault .hostAccess := by
  simp only [hostStep, h]

theorem hostStep_readReg_of_none {s : State} {addr : Word} {width : Nat}
    (h : s.regOffset addr width = none) : hostStep (.readReg addr width) s = .fault .hostAccess := by
  simp only [hostStep, h]

/-! ### Register writes -/

/-- Only the `CMD` write that would start a command over overlapping buffers has no step (R73). -/
theorem State.hostWriteReg_eq_next {s : State} {off : Nat} (v : Word)
    (h : off ≠ 0 ∨ s.port.busy = true ∨ s.buffersOverlap = false) :
    s.hostWriteReg off v = .next (s.writeReg off v) := by
  obtain hnext | ⟨hoff, hbusy, hover, -⟩ := hostWriteReg_cases s off v
  · exact hnext
  · simp [hoff, hbusy, hover] at h

/-- The `CMD` write that starts a command (R230). -/
theorem State.writeReg_cmd {s : State} (v : Word) (h : s.port.busy = false) :
    s.writeReg 0 v =
      { s with port := { s.port with cmd := v, busy := true, done := false, err := 0#4 }, stage := .command } := by
  simp [State.writeReg, Port.write, h]

/-- A busy port takes a write of `STATUS` or `CTRL` and no other (R75). -/
theorem Port.write_of_busy {p : Port} (off : Nat) (v : Word) (h : p.busy = true) :
    p.write off v =
      if off = 4 then { p with done := p.done && !v.getLsbD 1 }
      else if off = 8 then { p with irqEn := v.getLsbD 0 }
      else p := by
  simp [Port.write, doneAfterStatusWrite, h]

/-- A register write of a busy core touches nothing but the port: it starts no second command (R75). -/
theorem State.writeReg_of_busy {s : State} (off : Nat) (v : Word) (h : s.port.busy = true) :
    s.writeReg off v = { s with port := s.port.write off v } := by
  simp [State.writeReg, h]

/-! ### Host writes of memory -/

theorem inBuffer_iff (base len a : Word) : inBuffer base len a = true ↔ (a - base).toNat < len.toNat :=
  BitVec.ult_iff_lt

theorem State.inAnyBuffer_iff (s : State) (a : Word) :
    s.inAnyBuffer a = true ↔
      (a - s.port.cookieAddr).toNat < s.port.cookieLen.toNat ∨ (a - s.port.inAddr).toNat < s.port.inLen.toNat ∨
        (a - s.port.outAddr).toNat < s.port.outCap.toNat := by
  simp only [State.inAnyBuffer, Bool.or_eq_true, inBuffer_iff, or_assoc]

/-- While a command runs, a host write into one of its buffers has no step (R73). -/
theorem State.hostWrite_inAnyBuffer_of_busy {s : State} {a : Word} (b : Byte) (hbusy : s.port.busy = true)
    (ha : s.inAnyBuffer a = true) : s.hostWrite a b = .fault .hostWroteBuffer := by
  simp [State.hostWrite, hbusy, ha]

end Sys2Proof.Machine

namespace Sys2Proof.Proofs
open Sys2Proof.Machine

/-- Settles O14: an idle core takes the `CMD` write as the start of a command; a busy one takes `STATUS` and `CTRL` only. -/
theorem cmdWriteStartsCommand : Obligations.CmdWriteStartsCommand := by
  refine ⟨fun s v hidle hapart => ?_, fun s off v hbusy hlt hal => ?_⟩
  · rw [hostStep_writeReg_of_some v s.regOffset_coreBase, State.hostWriteReg_eq_next v (.inr (.inr hapart)),
      State.writeReg_cmd v hidle]
  · rw [hostStep_writeReg_of_some v (s.regOffset_coreBase_add hlt hal),
      State.hostWriteReg_eq_next v (.inr (.inl hbusy)), State.writeReg_of_busy off v hbusy,
      Port.write_of_busy off v hbusy]
    split_ifs <;> rfl

/-- Settles O17: an access without a register offset, and a write into a buffer of a busy core, have no step. -/
theorem hostDutiesBrokenStop : Obligations.HostDutiesBrokenStop := by
  refine ⟨fun s addr v width hbad => ?_, fun s a b hbusy hin => ?_⟩
  · have hnone := (s.regOffset_eq_none_iff addr width).2 hbad
    exact ⟨hostStep_writeReg_of_none v hnone, hostStep_readReg_of_none hnone⟩
  · exact State.hostWrite_inAnyBuffer_of_busy b hbusy ((s.inAnyBuffer_iff a).2 hin)

end Sys2Proof.Proofs
end

section
/-! The BitReader and its commands (family 41_bitreader.md): the input as big-endian numbers, what each read answers and where
it leaves the cursor inside the input and past its end, and the commands that put a read in `DATA_OUT`. -/

namespace Sys2Proof.Machine

/-! ### The cursor moved does not move the input -/

@[simp] theorem State.cursorAt_cursorAt (s : State) (p q : Nat) : (s.cursorAt p).cursorAt q = s.cursorAt q := rfl

@[simp] theorem State.cursorAt_endPos (s : State) (p : Nat) : (s.cursorAt p).endPos = s.endPos := rfl

@[simp] theorem State.cursorAt_streamBit (s : State) (p q : Nat) : (s.cursorAt p).streamBit q = s.streamBit q := rfl

@[simp] theorem State.cursorAt_streamNat (s : State) (p q n : Nat) :
    (s.cursorAt p).streamNat q n = s.streamNat q n := by
  induction n with
  | zero => rfl
  | succ n ih => simp only [State.streamNat, ih, State.cursorAt_streamBit]

@[simp] theorem State.cursorAt_streamWord (s : State) (p q n : Nat) :
    (s.cursorAt p).streamWord q n = s.streamWord q n := by
  simp only [State.streamWord, State.cursorAt_streamNat]

/-! ### The input as numbers (R62) -/

/-- Bit i of the n-bit number at p, from the least significant, is the stream's bit `n-1-i` places on. -/
theorem State.testBit_streamNat (s : State) (p n i : Nat) :
    (s.streamNat p n).testBit i = (decide (i < n) && s.streamBit (p + (n - 1 - i))) := by
  induction n generalizing i with
  | zero => simp [State.streamNat]
  | succ n ih =>
    rw [State.streamNat, ← Nat.bit_val]
    cases i with
    | zero => simp
    | succ i => simp [Nat.testBit_bit_succ, ih, Nat.sub_sub, Nat.add_comm 1 i]

theorem State.getLsbD_streamWord (s : State) (p n i : Nat) :
    (s.streamWord p n).getLsbD i = (decide (i < 32) && (decide (i < n) && s.streamBit (p + (n - 1 - i)))) := by
  rw [State.streamWord, BitVec.getLsbD_ofNat, State.testBit_streamNat]

theorem State.streamNat_eq_sum (s : State) (p n : Nat) :
    s.streamNat p n = ∑ t ∈ Finset.range n, (s.streamBit (p + t)).toNat * 2 ^ (n - 1 - t) := by
  induction n with
  | zero => rfl
  | succ n ih =>
    rw [State.streamNat, ih, Finset.sum_range_succ, Finset.mul_sum]
    congr 1
    · refine Finset.sum_congr rfl fun t ht => ?_
      have hexp : n + 1 - 1 - t = n - 1 - t + 1 := by have := Finset.mem_range.1 ht; omega
      rw [hexp, pow_succ]
      ring
    · simp

/-- A read in two parts (R124): n high bits and then the next 16. -/
theorem State.streamWord_shiftLeft_or (s : State) (p n : Nat) :
    s.streamWord p n <<< 16 ||| s.streamWord (p + n) 16 = s.streamWord p (n + 16) := by
  refine BitVec.eq_of_getLsbD_eq fun i hi => ?_
  simp only [BitVec.getLsbD_or, BitVec.getLsbD_shiftLeft, State.getLsbD_streamWord]
  by_cases hlow : i < 16
  · have hpos : p + n + (16 - 1 - i) = p + (n + 16 - 1 - i) := by omega
    have hlt : i < n + 16 := by omega
    rw [hpos]
    simp [hlow, hlt]
  · have hpos : n - 1 - (i - 16) = n + 16 - 1 - i := by omega
    have hlt : i - 16 < n ↔ i < n + 16 := by omega
    have hsub : i - 16 < 32 := by omega
    rw [hpos]
    simp [hlow, hi, hlt, hsub]

/-! ### The window of R122 -/

/-- The bits of a 24-bit window, from the most significant, are the stream's bits from the window's first byte on. -/
theorem State.streamBit_eq_window {s : State} {j q : Nat} {b0 b1 b2 : Byte} (h0 : s.inByte j = some b0)
    (h1 : s.inByte (j + 1) = some b1) (h2 : s.inByte (j + 2) = some b2) (hq : q < 24) :
    s.streamBit (8 * j + q) = (b0 ++ b1 ++ b2).getLsbD (23 - q) := by
  have hdiv : (8 * j + q) / 8 = j + q / 8 := by omega
  have hmod : (8 * j + q) % 8 = q % 8 := by omega
  rw [State.streamBit, hdiv, hmod, BitVec.getLsbD_append, BitVec.getLsbD_append]
  obtain hbyte | hbyte | hbyte : q / 8 = 0 ∨ q / 8 = 1 ∨ q / 8 = 2 := by omega
  · rw [if_neg (by omega), if_neg (by omega), show 23 - q - 8 - 8 = 7 - q % 8 by omega]
    simp [hbyte, h0]
  · rw [if_neg (by omega), if_pos (by omega), show 23 - q - 8 = 7 - q % 8 by omega]
    simp [hbyte, h1]
  · rw [if_pos (by omega), show 23 - q = 7 - q % 8 by omega]
    simp [hbyte, h2]

/-- The window shifted by `BIT_OFF` and cut to n bits is the n-bit number at the cursor (R122). -/
theorem State.window_eq_streamWord {s : State} {n : Nat} {b0 b1 b2 : Byte} (hn : n ≤ 16)
    (h0 : s.inByte s.cursor.byteIdx.toNat = some b0) (h1 : s.inByte (s.cursor.byteIdx.toNat + 1) = some b1)
    (h2 : s.inByte (s.cursor.byteIdx.toNat + 2) = some b2) :
    (((b0 ++ b1 ++ b2 : BitVec 24) <<< s.cursor.bitOff.toNat) >>> (24 - n)).setWidth 32 = s.streamWord s.pos n := by
  have hoff := s.cursor.bitOff.isLt
  refine BitVec.eq_of_getLsbD_eq fun i hi => ?_
  rw [BitVec.getLsbD_setWidth, BitVec.getLsbD_ushiftRight, BitVec.getLsbD_shiftLeft, State.getLsbD_streamWord]
  by_cases hin : i < n
  · have hpos : s.pos + (n - 1 - i) = 8 * s.cursor.byteIdx.toNat + (s.cursor.bitOff.toNat + (n - 1 - i)) :=
      Nat.add_assoc ..
    have hidx : 23 - (s.cursor.bitOff.toNat + (n - 1 - i)) = 24 - n + i - s.cursor.bitOff.toNat := by omega
    have hlt : 24 - n + i < 24 := by omega
    have hge : ¬ 24 - n + i < s.cursor.bitOff.toNat := by omega
    rw [hpos, State.streamBit_eq_window h0 h1 h2 (by omega), hidx]
    simp [hin, hlt, hge]
  · have hge : ¬ 24 - n + i < 24 := by omega
    simp [hin, hge]

/-- Where the input is readable each byte of it, and each beyond its end, is there to read (R123). -/
theorem State.inByte_isSome {s : State} (h : s.InputReadable) (j : Nat) : (s.inByte j).isSome = true := by
  unfold State.inByte
  split
  · exact h j ‹_›
  · rfl

/-- `read16(n)` answers the n bits at the cursor when the move over them is inside the input. -/
theorem read16_eq {s : State} {n : Nat} (hr : s.InputReadable) (hn : n ≤ 16) :
    read16 n s = (advance n s).bind fun _ t => .ok (s.streamWord s.pos n) t := by
  obtain ⟨b0, h0⟩ := Option.isSome_iff_exists.1 (State.inByte_isSome hr s.cursor.byteIdx.toNat)
  obtain ⟨b1, h1⟩ := Option.isSome_iff_exists.1 (State.inByte_isSome hr (s.cursor.byteIdx.toNat + 1))
  obtain ⟨b2, h2⟩ := Option.isSome_iff_exists.1 (State.inByte_isSome hr (s.cursor.byteIdx.toNat + 2))
  simp only [read16, h0, h1, h2, State.window_eq_streamWord hn h0 h1 h2]

/-- `read_bit()` answers the bit at the cursor when the move over it is inside the input; it reads the cursor's byte only
(R128). -/
theorem readBit_eq {s : State} (h : (s.inByte s.cursor.byteIdx.toNat).isSome = true) :
    readBit s = (advance 1 s).bind fun _ t => .ok (s.streamBit s.pos) t := by
  obtain ⟨b, hb⟩ := Option.isSome_iff_exists.1 h
  have hoff := s.cursor.bitOff.isLt
  have hdiv : s.pos / 8 = s.cursor.byteIdx.toNat := by unfold State.pos; omega
  have hmod : s.pos % 8 = s.cursor.bitOff.toNat := by unfold State.pos; omega
  simp only [readBit, hb, State.streamBit, hdiv, hmod, Option.getD_some]

/-! ### Moves of the cursor (R127, R130) -/

theorem checkEnd_cursorAt_of_le {s : State} {p : Nat} (hend : p ≤ s.endPos) (hp : p < 2 ^ 34) :
    checkEnd (s.cursorAt p) = .ok () (s.cursorAt p) := by
  refine checkEnd_inside ⟨?_, ?_⟩
  · rwa [State.cursorAt_pos _ (by omega)]
  · rw [State.cursorAt_byteIdx _ (by omega)]; omega

theorem checkEnd_cursorAt_of_lt {s : State} {p : Nat} (hend : s.endPos < p) (hp : p < 2 ^ 35) :
    checkEnd (s.cursorAt p) = .raised .malformedStream (s.cursorAt p) :=
  checkEnd_outside (by rwa [State.cursorAt_pos _ hp])

theorem advance_eq (n : Nat) (s : State) : advance n s = checkEnd (s.cursorAt (s.pos + n)) := by
  rw [advance, State.forward_eq_cursorAt]

theorem advance_eq_ok {s : State} {n : Nat} (hend : s.pos + n ≤ s.endPos) (hp : s.pos + n < 2 ^ 34) :
    advance n s = .ok () (s.cursorAt (s.pos + n)) := by
  rw [advance_eq, checkEnd_cursorAt_of_le hend hp]

theorem advance_eq_raised {s : State} {n : Nat} (hend : s.endPos < s.pos + n) (hp : s.pos + n < 2 ^ 35) :
    advance n s = .raised .malformedStream (s.cursorAt (s.pos + n)) := by
  rw [advance_eq, checkEnd_cursorAt_of_lt hend hp]

/-- `align()` checks the end at the next byte boundary, which is the cursor itself when it is on one. -/
theorem align_eq (s : State) : align s = checkEnd (s.cursorAt ((s.pos + 7) / 8 * 8)) := by
  have hoff := s.cursor.bitOff.isLt
  unfold align
  split
  · rename_i hzero
    have hpos : (s.pos + 7) / 8 * 8 = s.pos := by simp only [State.pos, hzero, BitVec.toNat_ofNat]; omega
    rw [hpos, State.cursorAt_self]
  · rename_i hzero
    have hne : s.cursor.bitOff.toNat ≠ 0 := fun h => hzero (BitVec.eq_of_toNat_eq h)
    have hpos : (s.pos + 7) / 8 * 8 = s.pos + (8 - s.cursor.bitOff.toNat) := by unfold State.pos; omega
    rw [hpos, ← State.forward_eq_cursorAt, Cursor.forward, Nat.add_sub_cancel' (by omega)]

/-! ### Reads inside the input (R124 to R128) -/

section InsideTheInput

variable {s : State} {n m : Nat}

theorem State.CanRead.mono (h : s.CanRead n) (hm : m ≤ n) : s.CanRead m :=
  ⟨h.1, by have := h.2.1; omega, by have := h.2.2; omega⟩

/-- When m of the bits have been read, the rest can be. -/
theorem State.CanRead.rest (h : s.CanRead (m + n)) : (s.cursorAt (s.pos + m)).CanRead n := by
  obtain ⟨hr, hend, hlt⟩ := h
  rw [State.CanRead, State.cursorAt_pos _ (by omega), State.cursorAt_endPos, Nat.add_assoc]
  exact ⟨hr, hend, hlt⟩

theorem read16_eq_ok (hn : n ≤ 16) (h : s.CanRead n) :
    read16 n s = .ok (s.streamWord s.pos n) (s.cursorAt (s.pos + n)) := by
  rw [read16_eq h.1 hn, advance_eq_ok h.2.1 h.2.2, Res.bind_ok]

/-- Up to 32 bits at the cursor, in one part or in two (R124, R125, R126). -/
theorem readBits_eq_ok (hn : n ≤ 32) (h : s.CanRead n) :
    readBits n s = .ok (s.streamWord s.pos n) (s.cursorAt (s.pos + n)) := by
  unfold readBits
  split
  · exact read16_eq_ok ‹_› h
  · obtain ⟨m, rfl⟩ : ∃ m, n = m + 16 := ⟨n - 16, by omega⟩
    have hpos : (s.cursorAt (s.pos + m)).pos = s.pos + m :=
      State.cursorAt_pos _ (by have := h.2.2; omega)
    rw [Nat.add_sub_cancel, read16_eq_ok (by omega) (h.mono (by omega)), Res.bind_ok,
      read16_eq_ok le_rfl h.rest, Res.bind_ok, hpos, State.cursorAt_streamWord,
      State.streamWord_shiftLeft_or, State.cursorAt_cursorAt, Nat.add_assoc]

theorem readBit_eq_ok (h : s.CanRead 1) : readBit s = .ok (s.streamBit s.pos) (s.cursorAt (s.pos + 1)) := by
  rw [readBit_eq (State.inByte_isSome h.1 _), advance_eq_ok h.2.1 h.2.2, Res.bind_ok]

/-- `unread_bits(n)` undoes a move of n bits (R129). -/
theorem unreadBits_cursorAt_add (h : s.pos + n < 2 ^ 34) :
    unreadBits n (s.cursorAt (s.pos + n)) = .ok () s := by
  have hpos : (s.cursorAt (s.pos + n)).pos = s.pos + n := State.cursorAt_pos _ (by omega)
  have hidx : (s.cursorAt (s.pos + n)).cursor.byteIdx.toNat = (s.pos + n) / 8 :=
    State.cursorAt_byteIdx _ (by omega)
  obtain ⟨hbad, -⟩ | ⟨-, -, hok⟩ := unreadBits_cases n (s.cursorAt (s.pos + n))
  · omega
  · rw [hok, hpos, Nat.add_sub_cancel, State.cursorAt_cursorAt, State.cursorAt_self]

end InsideTheInput

/-! ### Reads past the end (R127, R285) -/

section PastTheEnd

variable {s : State} {n : Nat}

theorem read16_eq_raised (hn : n ≤ 16) (hr : s.InputReadable) (hend : s.endPos < s.pos + n)
    (hp : s.pos + n < 2 ^ 35) : read16 n s = .raised .malformedStream (s.cursorAt (s.pos + n)) := by
  rw [read16_eq hr hn, advance_eq_raised hend hp, Res.bind_raised]

/-- The cursor is left where the failing part moved it: the high part when there is one and it fails, else the last part. -/
theorem readBits_eq_raised (hn : n ≤ 32) (hr : s.InputReadable) (hpos : s.pos ≤ s.endPos) (hmax : s.endPos < 2 ^ 34)
    (hend : s.endPos < s.pos + n) :
    readBits n s = .raised .malformedStream
      (s.cursorAt (if 16 < n ∧ s.endPos < s.pos + (n - 16) then s.pos + (n - 16) else s.pos + n)) := by
  unfold readBits
  split
  · rw [if_neg (by omega), read16_eq_raised ‹_› hr hend (by omega)]
  · obtain ⟨m, rfl⟩ : ∃ m, n = m + 16 := ⟨n - 16, by omega⟩
    rw [Nat.add_sub_cancel]
    by_cases hhigh : s.endPos < s.pos + m
    · rw [if_pos ⟨by omega, hhigh⟩, read16_eq_raised (by omega) hr hhigh (by omega), Res.bind_raised]
    · have hmid : (s.cursorAt (s.pos + m)).pos = s.pos + m := State.cursorAt_pos _ (by omega)
      rw [if_neg (by omega), read16_eq_ok (by omega) ⟨hr, by omega, by omega⟩, Res.bind_ok,
        read16_eq_raised le_rfl (s := s.cursorAt (s.pos + m)) hr (by rw [hmid, State.cursorAt_endPos]; omega)
          (by rw [hmid]; omega),
        Res.bind_raised, hmid, State.cursorAt_cursorAt, Nat.add_assoc]

/-- At the end of the input `read_bit()` reads no byte and raises (R123, R128). -/
theorem readBit_eq_raised (hpos : s.pos = s.endPos) (hmax : s.endPos < 2 ^ 34) :
    readBit s = .raised .malformedStream (s.cursorAt (s.pos + 1)) := by
  have hidx : ¬ s.cursor.byteIdx.toNat < s.port.inLen.toNat := by
    unfold State.pos State.endPos at hpos; omega
  have hbyte : (s.inByte s.cursor.byteIdx.toNat).isSome = true := by
    rw [State.inByte, if_neg hidx, Option.isSome_some]
  rw [readBit_eq hbyte, advance_eq_raised (by omega) (by omega), Res.bind_raised]

end PastTheEnd

/-! ### The commands BR_READ and BR_READ_BIT (R132, R133) -/

theorem readArgs_iff (a b : BitVec 6) : readArgs a b = true ↔ a.toNat ≤ 32 ∧ b = 0#6 := by
  simp [readArgs]

theorem argsZero_iff (a b : BitVec 6) : argsZero a b = true ↔ a = 0#6 ∧ b = 0#6 := by
  simp [argsZero]

theorem exec_brRead_of_args {a b : BitVec 6} (s : State) (h : readArgs a b = true) :
    exec (.brRead a b) s =
      ((readBits a.toNat s).bind fun v t => .ok () (t.setDataOut v).endCommand).outcome := by
  rw [exec, execBrRead, brReadBody, h, require_true, Res.bind_ok]

theorem exec_brRead_of_not_args {a b : BitVec 6} (s : State) (h : ¬ readArgs a b = true) :
    exec (.brRead a b) s = .next (s.raiseError .hostContract) := by
  rw [exec, execBrRead, brReadBody, Bool.eq_false_iff.2 h, require_false, Res.bind_raised, Res.outcome_raised]

theorem exec_brReadBit_of_args {a b : BitVec 6} (s : State) (h : argsZero a b = true) :
    exec (.brReadBit a b) s =
      ((readBit s).bind fun v t => .ok () (t.setDataOut ((BitVec.ofBool v).setWidth 32)).endCommand).outcome := by
  rw [exec, execBrReadBit, brReadBitBody, h, require_true, Res.bind_ok]

theorem exec_brReadBit_of_not_args {a b : BitVec 6} (s : State) (h : ¬ argsZero a b = true) :
    exec (.brReadBit a b) s = .next (s.raiseError .hostContract) := by
  rw [exec, execBrReadBit, brReadBitBody, Bool.eq_false_iff.2 h, require_false, Res.bind_raised, Res.outcome_raised]

end Sys2Proof.Machine

namespace Sys2Proof.Proofs
open Sys2Proof.Machine

/-- Settles O26: each part of a read is the window of R122, which holds the stream's bits in order. -/
theorem readBitsValue : Obligations.ReadBitsValue := by
  refine ⟨fun s n hn h => ?_, fun s h => readBit_eq_ok h⟩
  rw [readBits_eq_ok hn h, State.streamWord, State.streamNat_eq_sum]

/-- Settles O28: after a read inside the input the cursor can go back, and back is the state before the read. -/
theorem rewindLaw : Obligations.RewindLaw := by
  intro s t n v hn hcan hread
  obtain ⟨rfl, rfl⟩ : s.streamWord s.pos n = v ∧ s.cursorAt (s.pos + n) = t := by
    simpa [readBits_eq_ok hn hcan] using hread
  rw [unreadBits_cursorAt_add hcan.2.2, Res.bind_ok, hread]

/-- Settles O29: both moves are an end check at the new position. -/
theorem advanceAndAlign : Obligations.AdvanceAndAlign := by
  refine fun s n => ⟨advance_eq_ok, fun hend hp => advance_eq_raised hend (by omega), fun hend hp => ?_,
    fun hend hp => ?_⟩
  · have hbound : (s.pos + 7) / 8 * 8 ≤ s.endPos := by unfold State.endPos at *; omega
    rw [align_eq, checkEnd_cursorAt_of_le hbound (by omega)]
  · rw [align_eq, checkEnd_cursorAt_of_lt (by omega) (by omega)]

/-- Settles O31: the two commands are their argument check, the read, and the end of the command. -/
theorem brReadReadsBits : Obligations.BrReadReadsBits := by
  refine fun s a b => ⟨fun hbad => ?_, fun ha hcan => ?_, fun ha hr hpos hmax hend => ?_, fun hbad => ?_, fun hcan => ?_,
    fun hpos hmax => ?_⟩
  · refine exec_brRead_of_not_args s ?_
    rw [readArgs_iff, not_and_or, not_le]
    exact hbad
  · rw [exec_brRead_of_args s ((readArgs_iff a 0#6).2 ⟨ha, rfl⟩), readBits_eq_ok ha hcan, Res.bind_ok, Res.outcome_ok]
  · rw [exec_brRead_of_args s ((readArgs_iff a 0#6).2 ⟨ha, rfl⟩), readBits_eq_raised ha hr hpos hmax hend,
      Res.bind_raised, Res.outcome_raised]
    exact ⟨_, by split <;> omega, by split <;> omega, rfl⟩
  · refine exec_brReadBit_of_not_args s ?_
    rw [argsZero_iff, not_and_or]
    exact hbad
  · rw [exec_brReadBit_of_args s rfl, readBit_eq_ok hcan, Res.bind_ok, Res.outcome_ok]
    cases s.streamBit s.pos <;> rfl
  · rw [exec_brReadBit_of_args s rfl, readBit_eq_raised hpos hmax, Res.bind_raised, Res.outcome_raised]

end Sys2Proof.Proofs
end

section
/-! The leading-zero counter (family 42_lzc.md): the decision tree inside a byte, the scan over the bytes as an induction on the
number of bytes left, and the command that puts the count in `DATA_OUT`. -/

namespace Sys2Proof.Machine

/-! ### The count is the place of the highest set bit (R141, R142) -/

/-- The highest set bit of a number is that of its quotient by `2 ^ k`, k places up. -/
theorem log2_eq_log2_div_two_pow_add {n k : Nat} (h : 2 ^ k ≤ n) : n.log2 = (n / 2 ^ k).log2 + k := by
  have hle : k ≤ Nat.log 2 n := Nat.le_log_of_pow_le one_lt_two h
  rw [Nat.log2_eq_log_two, Nat.log2_eq_log_two, Nat.log_div_base_pow, Nat.sub_add_cancel hle]

/-- The tree finds the highest set bit of a non-zero byte. -/
theorem lzByte_add_log2 : ∀ byte : BitVec 8, byte ≠ 0#8 → lzByte byte + byte.toNat.log2 = 7 := by decide

/-- The shifts at which `lzScan` takes the low m bytes of a word, the highest byte first. -/
def byteShifts : Nat → List Nat
  | 0 => []
  | m + 1 => 8 * m :: byteShifts m

theorem lz_eq_lzScan_byteShifts (v : Word) : lz v = lzScan v (byteShifts 4) 0 := rfl

/-- A byte above which the word is 0 is the word's quotient. -/
theorem extractLsb'_byte_toNat {v : Word} {m : Nat} (hlt : v.toNat < 2 ^ (8 * (m + 1))) :
    (v.extractLsb' (8 * m) 8).toNat = v.toNat / 2 ^ (8 * m) := by
  rw [BitVec.extractLsb'_toNat, Nat.shiftRight_eq_div_pow, Nat.mod_eq_of_lt]
  exact Nat.div_lt_of_lt_mul (by rwa [← pow_add])

/-- A zero byte at the top leaves the bytes below it; in a non-zero one the tree finds the word's highest bit. -/
theorem lzScan_byteShifts_add_log2 {v : Word} (hv : v ≠ 0#32) :
    ∀ m out, v.toNat < 2 ^ (8 * m) → lzScan v (byteShifts m) out + v.toNat.log2 + 1 = out + 8 * m
  | 0, _, hlt => absurd (BitVec.eq_of_toNat_eq (y := 0#32) (by simpa using hlt)) hv
  | m + 1, out, hlt => by
    have hbyte := extractLsb'_byte_toNat hlt
    rw [byteShifts, lzScan]
    split
    case isTrue hne =>
      have hle : 2 ^ (8 * m) ≤ v.toNat := by
        by_contra hsmall
        exact hne (BitVec.eq_of_toNat_eq (hbyte.trans (Nat.div_eq_of_lt (not_le.1 hsmall))))
      have htree := lzByte_add_log2 _ hne
      rw [hbyte] at htree
      have hlog := log2_eq_log2_div_two_pow_add hle
      omega
    case isFalse hzero =>
      rw [not_not.1 hzero, BitVec.toNat_zero, eq_comm, Nat.div_eq_zero_iff_lt (by positivity)] at hbyte
      have ih := lzScan_byteShifts_add_log2 hv m (out + 8) hbyte
      omega

theorem lz_eq (v : Word) : lz v = if v = 0#32 then 32 else 31 - v.toNat.log2 := by
  split
  case isTrue h => rw [h]; rfl
  case isFalse h =>
    have hscan := lzScan_byteShifts_add_log2 h 4 0 v.isLt
    rw [lz_eq_lzScan_byteShifts]
    omega

/-! ### The command LZC (R143) -/

theorem exec_lzc_of_args {a b : BitVec 6} (s : State) (h : argsZero a b = true) :
    exec (.lzc a b) s = .next (s.setDataOut (BitVec.ofNat 32 (lz s.port.dataIn))).endCommand := by
  rw [exec, execLzc, lzcBody, h, require_true, Res.bind_ok, Res.outcome_ok]

theorem exec_lzc_of_not_args {a b : BitVec 6} (s : State) (h : ¬ argsZero a b = true) :
    exec (.lzc a b) s = .next (s.raiseError .hostContract) := by
  rw [exec, execLzc, lzcBody, Bool.eq_false_iff.2 h, require_false, Res.bind_raised, Res.outcome_raised]

end Sys2Proof.Machine

namespace Sys2Proof.Proofs
open Sys2Proof.Machine

/-- Settles O33: the scan stops in the byte of the highest set bit, whose place the tree finds; LZC is its argument check and
that count. -/
theorem lzcCountsLeadingZeros : Obligations.LzcCountsLeadingZeros := by
  refine ⟨lz_eq, fun s a b => ?_⟩
  split
  case isTrue hbad =>
    refine exec_lzc_of_not_args s ?_
    rw [argsZero_iff, not_and_or]
    exact hbad
  case isFalse hgood =>
    rw [← not_and_or, not_not] at hgood
    rw [exec_lzc_of_args s ((argsZero_iff a b).2 hgood), lz_eq, apply_ite (BitVec.ofNat 32)]

end Sys2Proof.Proofs
end

section
/-! The Rice decoder (family 43_rice.md): the unary prefix as an induction on its ones, what a codeword's prefix leaves to be
read, the command RICE_VALUE, and the ranges of the two Rice parameters. -/

namespace Sys2Proof.Machine

/-! ### The stream's numbers cut to their width -/

theorem State.streamNat_lt (s : State) (p n : Nat) : s.streamNat p n < 2 ^ n :=
  Nat.lt_pow_two_of_testBit _ fun i hi => by rw [State.testBit_streamNat, decide_eq_false (not_lt.2 hi), Bool.false_and]

/-- A read of n bits loses nothing when it is cut to n bits. -/
theorem State.toNat_setWidth_streamWord (s : State) (p : Nat) {n : Nat} (hn : n ≤ 32) :
    ((s.streamWord p n).setWidth n).toNat = s.streamNat p n := by
  have hlt := s.streamNat_lt p n
  have hword : s.streamNat p n < 2 ^ 32 := hlt.trans_le (Nat.pow_le_pow_right two_pos hn)
  rw [State.streamWord, BitVec.toNat_setWidth, BitVec.toNat_ofNat, Nat.mod_eq_of_lt hword, Nat.mod_eq_of_lt hlt]

theorem State.setWidth_setWidth_streamWord (s : State) (p : Nat) {n : Nat} (hn : n ≤ 32) :
    ((s.streamWord p n).setWidth n).setWidth 32 = s.streamWord p n := by
  refine BitVec.eq_of_toNat_eq ?_
  rw [BitVec.toNat_setWidth, State.toNat_setWidth_streamWord s p hn, State.streamWord, BitVec.toNat_ofNat]

/-! ### A read at another position of the input -/

section ReadAt

variable {s : State} {m n p : Nat}

theorem readBits_cursorAt_eq_ok (hn : n ≤ 32) (h : s.CanRead (m + n)) :
    readBits n (s.cursorAt (s.pos + m)) = .ok (s.streamWord (s.pos + m) n) (s.cursorAt (s.pos + m + n)) := by
  have hpos : (s.cursorAt (s.pos + m)).pos = s.pos + m := State.cursorAt_pos _ (by have := h.2.2; omega)
  rw [readBits_eq_ok hn h.rest, hpos, State.cursorAt_streamWord, State.cursorAt_cursorAt]

theorem readBit_cursorAt_eq_ok (h : s.CanRead (m + 1)) :
    readBit (s.cursorAt (s.pos + m)) = .ok (s.streamBit (s.pos + m)) (s.cursorAt (s.pos + m + 1)) := by
  have hpos : (s.cursorAt (s.pos + m)).pos = s.pos + m := State.cursorAt_pos _ (by have := h.2.2; omega)
  rw [readBit_eq_ok h.rest, hpos, State.cursorAt_streamBit, State.cursorAt_cursorAt]

/-- A read past the end leaves the cursor beyond it, at most n bits on. -/
theorem readBits_cursorAt_raised (hn : n ≤ 32) (hr : s.InputReadable) (hmax : s.endPos < 2 ^ 34) (hin : p ≤ s.endPos)
    (hend : s.endPos < p + n) :
    ∃ q, s.endPos < q ∧ q ≤ p + n ∧ readBits n (s.cursorAt p) = .raised .malformedStream (s.cursorAt q) := by
  have hpos : (s.cursorAt p).pos = p := State.cursorAt_pos _ (by omega)
  have hread := readBits_eq_raised (s := s.cursorAt p) hn hr (hpos.trans_le hin) hmax (by rwa [hpos])
  rw [hpos, State.cursorAt_endPos] at hread
  exact ⟨_, by split <;> omega, by split <;> omega, hread⟩

end ReadAt

/-! ### The unary prefix (R154) -/

/-- A plan that goes on with another is followed in two parts. -/
theorem fetchFields_bind {α β : Type} (f : Fields α) (g : α → Fields β) (s : State) :
    fetchFields (f.bind g) s = (fetchFields f s).bind fun a t => fetchFields (g a) t := by
  induction f generalizing s with
  | done a => rfl
  | field n k ih => simp only [Fields.bind, fetchFields, ih, Res.bind_assoc]
  | bit k ih => simp only [Fields.bind, fetchFields, ih, Res.bind_assoc]
  | back f ih => simp only [Fields.bind, fetchFields, ih, Res.bind_assoc]

/-- The unary prefix of a codeword: the ones before the zero, at most nine bits read. -/
def readPrefix (s : State) : Res Nat := fetchFields (unaryFields (Config.riceThreshold + 1) 0) s

section Prefix

variable {s : State} {x : Nat}

/-- x ones are counted and passed, and the prefix goes on. -/
theorem fetchFields_unaryFields_ones (hcan : s.CanRead x) (hones : ∀ t < x, s.streamBit (s.pos + t) = true)
    (fuel count : Nat) :
    fetchFields (unaryFields (fuel + x) count) s =
      fetchFields (unaryFields fuel (count + x)) (s.cursorAt (s.pos + x)) := by
  induction x generalizing fuel with
  | zero => simp only [Nat.add_zero, State.cursorAt_self]
  | succ x ih =>
    rw [← Nat.add_assoc, Nat.add_right_comm, ih (hcan.mono (by omega)) (fun t ht => hones t (by omega)), unaryFields,
      fetchFields, readBit_cursorAt_eq_ok hcan, Res.bind_ok, hones x (by omega), if_pos rfl]
    rfl

/-- At most eight ones and a zero: the prefix is the ones, and the cursor is after the zero. -/
theorem readPrefix_of_zero (hx : x ≤ Config.riceThreshold) (hcan : s.CanRead (x + 1))
    (hones : ∀ t < x, s.streamBit (s.pos + t) = true) (hzero : s.streamBit (s.pos + x) = false) :
    readPrefix s = .ok x (s.cursorAt (s.pos + x + 1)) := by
  have hfuel : Config.riceThreshold + 1 = Config.riceThreshold - x + 1 + x := by omega
  rw [readPrefix, hfuel, fetchFields_unaryFields_ones (hcan.mono (by omega)) hones, unaryFields, fetchFields,
    readBit_cursorAt_eq_ok hcan, Res.bind_ok, hzero, Nat.zero_add]
  rfl

/-- Nine ones end the prefix without a zero (R156). -/
theorem readPrefix_of_nine (hcan : s.CanRead 9) (hones : ∀ t < 9, s.streamBit (s.pos + t) = true) :
    readPrefix s = .ok 9 (s.cursorAt (s.pos + 9)) :=
  fetchFields_unaryFields_ones hcan hones 0 0

/-- An input that ends after at most eight ones raises one bit past its end. -/
theorem readPrefix_of_end (hx : x ≤ Config.riceThreshold) (hr : s.InputReadable) (hmax : s.endPos < 2 ^ 34)
    (hend : s.pos + x = s.endPos) (hones : ∀ t < x, s.streamBit (s.pos + t) = true) :
    readPrefix s = .raised .malformedStream (s.cursorAt (s.endPos + 1)) := by
  have hfuel : Config.riceThreshold + 1 = Config.riceThreshold - x + 1 + x := by omega
  have hpos : (s.cursorAt s.endPos).pos = s.endPos := State.cursorAt_pos _ (by omega)
  rw [readPrefix, hfuel, fetchFields_unaryFields_ones ⟨hr, hend.le, by omega⟩ hones, hend, unaryFields, fetchFields,
    readBit_eq_raised hpos hmax, Res.bind_raised, hpos, State.cursorAt_cursorAt]

end Prefix

/-! ### The value of a codeword by its prefix (R153, R155, R156) -/

section Value

variable {s t : State} {w k x : Nat} {mask : Word}

theorem decodeValue_of_prefix_raised {e : ErrKind} (h : readPrefix s = .raised e t) :
    decodeValue w k mask s = .raised e t := by
  rw [readPrefix] at h
  rw [decodeValue, codewordFields, fetchFields_bind, h, Res.bind_raised, Res.bind_raised]

/-- After nine ones the value is the next w bits, verbatim. -/
theorem decodeValue_of_escape (h : readPrefix s = .ok 9 t) :
    decodeValue w k mask s = (readBits w t).bind fun v u => .ok ((v.setWidth w).setWidth 32) u := by
  rw [readPrefix] at h
  rw [decodeValue, codewordFields, fetchFields_bind, h, Res.bind_ok, if_pos (by decide), fetchFields, Res.bind_assoc]
  rfl

theorem setWidth_ofNat_prefix (hx : x ≤ Config.riceThreshold) :
    (BitVec.ofNat 4 x).setWidth 32 = BitVec.ofNat 32 x :=
  BitVec.setWidth_ofNat_of_le_of_lt (by decide) (hx.trans_lt (by decide))

/-- With k = 1 the prefix is the value. -/
theorem decodeValue_of_one (hx : x ≤ Config.riceThreshold) (h : readPrefix s = .ok x t) :
    decodeValue w 1 mask s = .ok (BitVec.ofNat 32 x) t := by
  rw [readPrefix] at h
  rw [decodeValue, codewordFields, fetchFields_bind, h, Res.bind_ok, if_neg (not_lt.2 hx), if_pos rfl, fetchFields,
    Res.bind_ok, codewordValue, if_pos rfl, setWidth_ofNat_prefix hx]

/-- The part of a value that x ones give (R155). -/
def prefixValue (k : Nat) (mask : Word) (x : Nat) : Word := BitVec.ofNat 32 x * (((1#32 <<< k) - 1#32) &&& mask)

theorem codewordValue_unary (hx : x ≤ Config.riceThreshold) (hk : k ≠ 1) (sfx : Word) :
    codewordValue k mask (.unary (BitVec.ofNat 4 x) sfx) =
      if 1 < sfx.toNat then prefixValue k mask x + (sfx - 1#32) else prefixValue k mask x := by
  rw [codewordValue, if_neg hk, setWidth_ofNat_prefix hx]
  rfl

/-- With another k the suffix is read; one of 0 or 1 gives a bit back. -/
theorem decodeValue_of_suffix (hx : x ≤ Config.riceThreshold) (hk : k ≠ 1) (hk32 : k ≤ 32)
    (h : readPrefix s = .ok x t) :
    decodeValue w k mask s = (readBits k t).bind fun v u =>
      if 1 < (v.setWidth k).toNat then .ok (prefixValue k mask x + ((v.setWidth k).setWidth 32 - 1#32)) u
      else (unreadBits 1 u).bind fun _ u' => .ok (prefixValue k mask x) u' := by
  rw [readPrefix] at h
  rw [decodeValue, codewordFields, fetchFields_bind, h, Res.bind_ok, if_neg (not_lt.2 hx), if_neg hk, fetchFields,
    Res.bind_assoc]
  congr 1
  funext v u
  split
  case isTrue hbig =>
    have hword : 1 < ((v.setWidth k).setWidth 32).toNat := by rwa [BitVec.toNat_setWidth_of_le hk32]
    rw [fetchFields, Res.bind_ok, codewordValue_unary hx hk, if_pos hword]
  case isFalse =>
    rw [fetchFields, Res.bind_assoc]
    simp only [fetchFields, Res.bind_ok, codewordValue_unary hx hk]
    rfl

/-- The suffix inside the input: its value less 1 is added when it is above 1, else the cursor is one bit back. -/
theorem decodeValue_of_suffix_ok (hx : x ≤ Config.riceThreshold) (hk : k ≠ 1) (hk32 : k ≤ 32)
    (hcan : s.CanRead (x + 1 + k)) (h : readPrefix s = .ok x (s.cursorAt (s.pos + x + 1))) :
    decodeValue w k mask s =
      if 1 < s.streamNat (s.pos + x + 1) k then
        .ok (prefixValue k mask x + BitVec.ofNat 32 (s.streamNat (s.pos + x + 1) k - 1))
          (s.cursorAt (s.pos + x + 1 + k))
      else .ok (prefixValue k mask x) (s.cursorAt (s.pos + x + k)) := by
  have hread := readBits_cursorAt_eq_ok hk32 hcan
  rw [← Nat.add_assoc] at hread
  rw [decodeValue_of_suffix hx hk hk32 h, hread, Res.bind_ok, State.toNat_setWidth_streamWord s _ hk32,
    State.setWidth_setWidth_streamWord s _ hk32]
  split
  case isTrue hbig => rw [State.streamWord, BitVec.ofNat_sub_ofNat_of_le _ _ (by decide) hbig.le]
  case isFalse =>
    have hlt := hcan.2.2
    have hpos : (s.cursorAt (s.pos + x + k)).pos = s.pos + x + k := State.cursorAt_pos _ (by omega)
    have hunread := unreadBits_cursorAt_add (s := s.cursorAt (s.pos + x + k)) (n := 1) (by omega)
    rw [hpos, State.cursorAt_cursorAt, Nat.add_right_comm] at hunread
    rw [hunread, Res.bind_ok]

end Value

/-! ### The command RICE_VALUE (R159) -/

theorem riceArgs_iff (a b : BitVec 6) : riceArgs a b = true ↔ 1 ≤ a.toNat ∧ a.toNat ≤ 32 ∧ b.toNat ≤ 31 := by
  simp [riceArgs, and_assoc]

theorem exec_riceValue_of_args {a b : BitVec 6} (s : State) (h : riceArgs a b = true) :
    exec (.riceValue a b) s =
      ((decodeValue a.toNat b.toNat s.port.dataIn s).bind fun v t => .ok () (t.setDataOut v).endCommand).outcome := by
  rw [exec, execRiceValue, riceValueBody, h, require_true, Res.bind_ok]

section Command

variable {a b : BitVec 6} {s t : State}

theorem exec_riceValue_of_ok {v : Word} (h : riceArgs a b = true)
    (hv : decodeValue a.toNat b.toNat s.port.dataIn s = .ok v t) :
    exec (.riceValue a b) s = .next (t.setDataOut v).endCommand := by
  rw [exec_riceValue_of_args s h, hv, Res.bind_ok, Res.outcome_ok]

theorem exec_riceValue_of_raised {e : ErrKind} (h : riceArgs a b = true)
    (hv : decodeValue a.toNat b.toNat s.port.dataIn s = .raised e t) :
    exec (.riceValue a b) s = .next (t.raiseError e) := by
  rw [exec_riceValue_of_args s h, hv, Res.bind_raised, Res.outcome_raised]

end Command

/-! ### The Rice parameters (R152, R162, R166) -/

theorem lz_le (v : Word) : lz v ≤ 32 := by
  rw [lz_eq]; split <;> omega

theorem lz_of_negative {v : Word} (h : v.toInt < 0) : lz v = 0 := by
  have hle : 2 ^ 31 ≤ v.toNat := by rw [BitVec.toInt_eq_toNat_cond] at h; split at h <;> omega
  have hne : v ≠ 0#32 := by rintro rfl; simp at hle
  have hlog : 31 ≤ v.toNat.log2 := (Nat.le_log2 (by omega)).2 hle
  rw [lz_eq, if_neg hne]
  omega

/-- `K` as an integer: the smaller of the two (R152). -/
theorem riceK_toInt (h : Word) {kmod : Word} (hk : kmod.toNat < 256) :
    (riceK h kmod).toInt = min (31 - (lz (h.sshiftRight 9 + 3#32) : Int)) kmod.toNat := by
  have hlz := lz_le (h.sshiftRight 9 + 3#32)
  unfold riceK
  generalize lz (h.sshiftRight 9 + 3#32) = z at *
  have hkmod : kmod.toInt = kmod.toNat := BitVec.toInt_eq_toNat_of_lt (by omega)
  have hz : (BitVec.ofNat 32 z).toInt = z := by
    rw [BitVec.toInt_ofNat', Int.bmod_eq_of_le_mul_two (by omega) (by omega)]
  have hk0 : (31#32 - kmod - BitVec.ofNat 32 z).toInt = 31 - kmod.toNat - z := by
    rw [BitVec.toInt_sub, BitVec.toInt_sub, hkmod, hz, show (31#32).toInt = 31 from rfl,
      Int.bmod_eq_of_le_mul_two (x := 31 - kmod.toNat) (by omega) (by omega),
      Int.bmod_eq_of_le_mul_two (by omega) (by omega)]
  simp only [BitVec.slt_iff_toInt_lt, hk0, BitVec.toInt_zero]
  split
  case isTrue hneg =>
    rw [BitVec.toInt_add, hk0, hkmod, Int.bmod_eq_of_le_mul_two (by omega) (by omega)]
    omega
  case isFalse hpos =>
    rw [hkmod]
    omega

/-- A history that is not negative gives a sum of at least 3 and below 2^23 (R166). -/
theorem lz_riceK_of_nonneg {h : Word} (hh : h.toNat < 2 ^ 31) :
    9 ≤ lz (h.sshiftRight 9 + 3#32) ∧ lz (h.sshiftRight 9 + 3#32) ≤ 30 := by
  have hmsb : h.msb = false := by rw [BitVec.msb_eq_decide]; simpa using hh
  have hsum : (h.sshiftRight 9 + 3#32).toNat = h.toNat / 512 + 3 := by
    rw [BitVec.sshiftRight_eq_of_msb_false hmsb, BitVec.toNat_add, BitVec.toNat_ushiftRight, Nat.shiftRight_eq_div_pow]
    simp only [BitVec.toNat_ofNat]
    omega
  have hne : h.sshiftRight 9 + 3#32 ≠ 0#32 := by intro h0; rw [h0] at hsum; simp at hsum
  have hlow : 1 ≤ (h.toNat / 512 + 3).log2 := (Nat.le_log2 (by omega)).2 (by omega)
  have hhigh : (h.toNat / 512 + 3).log2 < 23 := (Nat.log2_lt (by omega)).2 (by omega)
  rw [lz_eq, if_neg hne, hsum]
  omega

/-- The table of R162 for the histories at which a zero run is due (R161). -/
theorem zeroRunK_toNat_of_lt_128 : ∀ h < 128, (zeroRunK (BitVec.ofNat 32 h)).toNat =
    if h = 0 then 8 else if h = 1 then 7 else if h ≤ 3 then 6 else if h ≤ 7 then 5 else if h ≤ 15 then 4
    else if h ≤ 31 then 3 else if h ≤ 47 then 2 else if h ≤ 63 then 3 else if h ≤ 111 then 2 else 3 := by
  decide

/-- `lz` is 0, and the quotient of `HISTORY + 16` is at most 0, from which 24 is taken (R162). -/
theorem zeroRunK_negative {h : Word} (hneg : h.toInt < 0) : (zeroRunK h).toInt < 0 := by
  have hmin : -2 ^ 31 ≤ h.toInt := h.le_toInt
  have hsum : (h + 16#32).toInt = h.toInt + 16 := by
    rw [BitVec.toInt_add, show (16#32).toInt = 16 from rfl, Int.bmod_eq_of_le_mul_two (by omega) (by omega)]
  have hdiv : ((h + 16#32).sdiv 64#32).toInt = (h.toInt + 16).tdiv 64 := by
    rw [BitVec.toInt_sdiv_of_ne_or_ne _ _ (.inr (by decide)), hsum]
    rfl
  have hlow : (-2 ^ 31 : Int).tdiv 64 ≤ (h.toInt + 16).tdiv 64 := Int.tdiv_le_tdiv (by decide) (by omega)
  have hhigh : (h.toInt + 16).tdiv 64 ≤ (15 : Int).tdiv 64 := Int.tdiv_le_tdiv (by decide) (by omega)
  rw [show (-2 ^ 31 : Int).tdiv 64 = -2 ^ 25 by decide] at hlow
  rw [show (15 : Int).tdiv 64 = 0 by decide] at hhigh
  rw [zeroRunK, lz_of_negative hneg, BitVec.zero_add, BitVec.toInt_sub, hdiv, show (24#32).toInt = 24 from rfl,
    Int.bmod_eq_of_le_mul_two (by omega) (by omega)]
  omega

end Sys2Proof.Machine

namespace Sys2Proof.Proofs
open Sys2Proof.Machine

/-- Settles O35: the prefix gives x and the cursor after its zero, and for k other than 1 the suffix is read there. -/
theorem riceValueUnary : Obligations.RiceValueUnary := by
  intro s w k x hw1 hw32 hk31 hx hones
  have hargs := (riceArgs_iff w k).2 ⟨hw1, hw32, hk31⟩
  have hkne : k ≠ 1#6 → k.toNat ≠ 1 := fun hk hk1 => hk (BitVec.eq_of_toNat_eq hk1)
  refine ⟨fun hcan hzero => ?_, fun hr hmax => ⟨fun hend => ⟨?_, rfl⟩, fun hin hzero hk hend => ?_⟩⟩
  · have hprefix := readPrefix_of_zero hx (hcan.mono (by omega)) hones hzero
    have hsuffix (hk : k ≠ 1#6) :=
      decodeValue_of_suffix_ok (w := w.toNat) (mask := s.port.dataIn) hx (hkne hk) (by omega)
        (by rwa [if_neg hk] at hcan) hprefix
    refine ⟨fun hk => ?_, fun hk hbig => ?_, fun hk hsmall => ?_⟩
    · subst hk
      exact exec_riceValue_of_ok hargs (decodeValue_of_one hx hprefix)
    · exact exec_riceValue_of_ok hargs ((hsuffix hk).trans (if_pos hbig))
    · exact exec_riceValue_of_ok hargs ((hsuffix hk).trans (if_neg (not_lt.2 hsmall)))
  · exact exec_riceValue_of_raised hargs (decodeValue_of_prefix_raised (readPrefix_of_end hx hr hmax hend hones))
  · have hprefix := readPrefix_of_zero hx ⟨hr, hin, by omega⟩ hones hzero
    obtain ⟨q, hpast, hle, hread⟩ := readBits_cursorAt_raised (by omega) hr hmax hin hend
    refine ⟨q, hpast, hle, exec_riceValue_of_raised hargs ?_, rfl⟩
    rw [decodeValue_of_suffix hx (hkne hk) (by omega) hprefix, hread, Res.bind_raised]

/-- Settles O36: nine ones end the prefix, and the value is the read of w bits after them. -/
theorem riceValueEscape : Obligations.RiceValueEscape := by
  intro s w k hw1 hw32 hk31 hones
  have hargs := (riceArgs_iff w k).2 ⟨hw1, hw32, hk31⟩
  refine ⟨fun hcan => ?_, fun hr hmax hin hend => ?_⟩
  · have hprefix := readPrefix_of_nine (hcan.mono (by omega)) hones
    refine exec_riceValue_of_ok hargs ?_
    rw [decodeValue_of_escape hprefix, readBits_cursorAt_eq_ok hw32 hcan, Res.bind_ok,
      State.setWidth_setWidth_streamWord _ _ hw32]
  · have hprefix := readPrefix_of_nine ⟨hr, hin, by omega⟩ hones
    obtain ⟨q, hpast, hle, hread⟩ := readBits_cursorAt_raised hw32 hr hmax hin hend
    refine ⟨q, hpast, hle, exec_riceValue_of_raised hargs ?_, rfl⟩
    rw [decodeValue_of_escape hprefix, hread, Res.bind_raised]

/-- Settles O37: `K` by the sign of `k0`; the sum it counts in has its highest bit at 1 to 22 for a history that is not
negative; the zero run by its table and by `lz` of a negative word. -/
theorem riceParameters : Obligations.RiceParameters := by
  refine ⟨fun h kmod => ?_, zeroRunK_toNat_of_lt_128, fun h => zeroRunK_negative⟩
  have hkmod : (kmod.setWidth 32).toNat = kmod.toNat := BitVec.toNat_setWidth_of_le (by decide)
  have hint := riceK_toInt h (kmod := kmod.setWidth 32) (by omega)
  rw [hkmod] at hint
  refine ⟨hint, fun hh => ?_⟩
  obtain ⟨hlow, hhigh⟩ := lz_riceK_of_nonneg hh
  refine ⟨?_, fun hzero => ?_⟩
  · have := BitVec.toInt_eq_toNat_cond (riceK h (kmod.setWidth 32))
    split at this <;> omega
  · rw [hzero, BitVec.toInt_zero] at hint
    exact BitVec.eq_of_toNat_eq (by simp; omega)

end Sys2Proof.Proofs
end

section
/-! The adaptive FIR predictor (family 44_fir.md): its first-difference path, and the cases in which the general loop does not
run or raises at its first sample. -/

namespace Sys2Proof.Machine

/-! ### First differences (R184, R185) -/

@[simp] theorem length_firstDiff (cb : Nat) (prev : Word) (src : List Word) :
    (firstDiff cb prev src).length = src.length := by
  induction src generalizing prev with
  | nil => rfl
  | cons x rest ih => simp only [firstDiff, List.length_cons, ih]

/-- In the samples from `prev` on, each one after `prev` is made from the sample before it and its residual. -/
theorem getElem?_firstDiff {cb i : Nat} {prev p x : Word} {src : List Word}
    (hp : (prev :: firstDiff cb prev src)[i]? = some p) (hx : src[i]? = some x) :
    (firstDiff cb prev src)[i]? = some (sext cb (p + x)) := by
  induction src generalizing prev i with
  | nil => cases hx
  | cons y rest ih =>
    cases i with
    | zero =>
      cases hp
      cases hx
      rfl
    | succ i => exact ih hp hx

/-- The samples of the first-difference path: the first residual as it is, then first differences summed up (R184, R185). -/
def firstDiffSamples (cb : Nat) : List Word → List Word
  | [] => []
  | x :: rest => x :: firstDiff cb x rest

@[simp] theorem length_firstDiffSamples (cb : Nat) (src : List Word) :
    (firstDiffSamples cb src).length = src.length := by
  cases src with
  | nil => rfl
  | cons x rest => simp only [firstDiffSamples, List.length_cons, length_firstDiff]

theorem getElem?_zero_firstDiffSamples (cb : Nat) (src : List Word) : (firstDiffSamples cb src)[0]? = src[0]? := by
  cases src <;> rfl

theorem getElem?_succ_firstDiffSamples {cb i : Nat} {p x : Word} {src : List Word}
    (hp : (firstDiffSamples cb src)[i]? = some p) (hx : src[i + 1]? = some x) :
    (firstDiffSamples cb src)[i + 1]? = some (sext cb (p + x)) := by
  cases src with
  | nil => cases hx
  | cons y rest => exact getElem?_firstDiff hp hx

/-! ### The cases of the predictor (R181) -/

theorem fir_zero (cb q : Nat) (src coef : List Word) : fir cb 0 q src coef = some (src, coef) := by
  cases src <;> rfl

theorem fir_thirtyOne (cb q : Nat) (src coef : List Word) :
    fir cb 31 q src coef = some (firstDiffSamples cb src, coef) := by
  cases src <;> rfl

/-- With n in 1..30 and a first residual x the predictor runs the warm-up and then the general loop on what is left. -/
theorem fir_cons_of_general {n : Nat} (h1 : 1 ≤ n) (h30 : n ≤ 30) (cb q : Nat) (x : Word) (rest coef : List Word) :
    fir cb n q (x :: rest) coef =
      (firLoop cb n q (rest.drop n) (x :: firstDiff cb x (rest.take n)).reverse (coef.take n)).map
        fun out => (out.1.reverse, out.2 ++ coef.drop n) := by
  have h0 : n ≠ 0 := by omega
  have h31 : n ≠ 31 := by omega
  simp only [fir, h0, h31, if_false]
  cases firLoop cb n q (rest.drop n) (x :: firstDiff cb x (rest.take n)).reverse (coef.take n) <;> rfl

/-- The general loop raises at its first sample when the quantization is 0 (R190). -/
theorem firLoop_quant_zero {src : List Word} (h : src ≠ []) (cb n : Nat) (hist coefs : List Word) :
    firLoop cb n 0 src hist coefs = none := by
  cases src with
  | nil => exact absurd rfl h
  | cons e rest => rfl

/-- With at most n+1 residuals the warm-up takes them all, and the general loop has none (R190, R193). -/
theorem fir_of_short {n : Nat} {src : List Word} (h1 : 1 ≤ n) (h30 : n ≤ 30) (hlen : src.length ≤ n + 1)
    (cb q : Nat) (coef : List Word) : fir cb n q src coef = some (firstDiffSamples cb src, coef) := by
  cases src with
  | nil => rfl
  | cons x rest =>
    have hrest : rest.length ≤ n := Nat.le_of_succ_le_succ hlen
    rw [fir_cons_of_general h1 h30, List.drop_of_length_le hrest, List.take_of_length_le hrest]
    simp only [firLoop, Option.map_some, List.reverse_reverse, List.take_append_drop, firstDiffSamples]

/-- With more than n+1 residuals the general loop is reached, where quantization 0 raises (R190). -/
theorem fir_quant_zero_of_long {n : Nat} {src : List Word} (h1 : 1 ≤ n) (h30 : n ≤ 30) (hlen : n + 2 ≤ src.length)
    (cb : Nat) (coef : List Word) : fir cb n 0 src coef = none := by
  cases src with
  | nil => simp at hlen
  | cons x rest =>
    have hleft : rest.drop n ≠ [] := List.drop_eq_nil_iff.not.2 (by rw [List.length_cons] at hlen; omega)
    rw [fir_cons_of_general h1 h30, firLoop_quant_zero hleft, Option.map_none]

end Sys2Proof.Machine

namespace Sys2Proof.Proofs
open Sys2Proof.Machine

/-- Settles O43: with 31 coefficients, or with too few residuals for the general loop, the samples are those of the
first-difference path; the general loop refuses quantization 0. -/
theorem firSpecialCases : Obligations.FirSpecialCases := by
  intro cb n q src coef
  have hsamples : (firstDiffSamples cb src).length = src.length ∧ (firstDiffSamples cb src)[0]? = src[0]? ∧
      ∀ (i : Nat) (p x : Word), (firstDiffSamples cb src)[i]? = some p → src[i + 1]? = some x →
        (firstDiffSamples cb src)[i + 1]? = some (sext cb (p + x)) :=
    ⟨length_firstDiffSamples cb src, getElem?_zero_firstDiffSamples cb src,
      fun _ _ _ => getElem?_succ_firstDiffSamples⟩
  refine ⟨fir_zero cb q src coef, ⟨_, fir_thirtyOne cb q src coef, hsamples⟩, fun h1 h30 hlong => ?_,
    fun h1 h30 hshort => ?_⟩
  · exact fir_quant_zero_of_long h1 h30 hlong cb coef
  · exact ⟨_, fir_of_short h1 h30 hshort cb q coef, hsamples⟩

end Sys2Proof.Proofs
end

section
/-! The unmixer and the output (family 45_unmix.md): the value of each channel, the container value as arithmetic, where a byte
of a sample stands in the output buffer, and a read after the writes of an element. -/

namespace Sys2Proof.Machine

/-! ### Channel and low-bit values (R200 to R202, R209) -/

theorem State.nch_eq_two_iff (s : State) : s.nch = 2 ↔ s.parser.state = .cpe := by
  rw [State.nch]; split <;> simp_all

theorem State.nch_le_two (s : State) : s.nch ≤ 2 := by
  rw [State.nch]; split <;> decide

theorem scratchAt_of_getElem? {b : List Word} {i : Nat} {x : Word} (h : b[i]? = some x) : scratchAt b i = x := by
  rw [scratchAt, List.getD_eq_getElem?_getD, h, Option.getD_some]

theorem unmix_of_zero (sh : BitVec 8) (a b : Word) : unmix 0#8 sh a b = (a, b) := rfl

theorem unmix_of_ne_zero {w : BitVec 8} (hw : w ≠ 0#8) (sh : BitVec 8) (a b : Word) :
    unmix w sh a b = (a - (b * w.setWidth 32).sshiftRight sh.toNat + b, a - (b * w.setWidth 32).sshiftRight sh.toNat) := by
  rw [unmix, if_neg hw]

theorem State.channelValues_of_pair {s : State} (h : s.parser.state = .cpe) (i : Nat) :
    s.channelValues i =
      [(unmix s.parser.mixWeight s.parser.mixShift (scratchAt s.ch0.smp i) (scratchAt s.ch1.smp i)).1,
        (unmix s.parser.mixWeight s.parser.mixShift (scratchAt s.ch0.smp i) (scratchAt s.ch1.smp i)).2] := by
  rw [State.channelValues, if_pos (s.nch_eq_two_iff.2 h)]

theorem State.channelValues_of_mono {s : State} (h : s.parser.state ≠ .cpe) (i : Nat) :
    s.channelValues i = [scratchAt s.ch0.smp i] := by
  rw [State.channelValues, if_neg (mt s.nch_eq_two_iff.1 h)]

theorem State.lowValues_of_pair {s : State} (h : s.parser.state = .cpe) (i : Nat) :
    s.lowValues i = [scratchAt s.ch0.low i, scratchAt s.ch1.low i] := by
  rw [State.lowValues, if_pos (s.nch_eq_two_iff.2 h)]

theorem State.lowValues_of_mono {s : State} (h : s.parser.state ≠ .cpe) (i : Nat) :
    s.lowValues i = [scratchAt s.ch0.low i] := by
  rw [State.lowValues, if_neg (mt s.nch_eq_two_iff.1 h)]

theorem State.length_channelValues (s : State) (i : Nat) : (s.channelValues i).length = s.nch := by
  by_cases h : s.parser.state = .cpe
  · rw [State.channelValues_of_pair h, s.nch_eq_two_iff.2 h]; rfl
  · rw [State.channelValues_of_mono h, State.nch, if_neg h]; rfl

theorem State.lt_nch_of_channelValues {s : State} {i ch : Nat} {v : Word} (h : (s.channelValues i)[ch]? = some v) :
    ch < s.nch := by
  obtain ⟨hlt, -⟩ := List.getElem?_eq_some_iff.1 h
  rwa [State.length_channelValues] at hlt

/-! ### The container value (R205 to R208) -/

/-- The mask of R207 and R208 keeps the bits below n. -/
theorem getLsbD_not_shiftLeft_allOnes (n : Nat) {i : Nat} (hi : i < 32) :
    (~~~(0xFFFFFFFF#32 <<< n)).getLsbD i = decide (i < n) := by
  have hshift : i - n < 32 := by omega
  rw [BitVec.getLsbD_not, BitVec.getLsbD_shiftLeft, show 0xFFFFFFFF#32 = BitVec.allOnes 32 from rfl,
    BitVec.getLsbD_allOnes, decide_eq_true hi, decide_eq_true hshift]
  simp

/-- The low n bits of a word, as a mask and as a remainder. -/
theorem and_not_shiftLeft_allOnes (low : Word) (n : Nat) :
    low &&& ~~~(0xFFFFFFFF#32 <<< n) = BitVec.ofNat 32 (low.toNat % 2 ^ n) := by
  refine BitVec.eq_of_getLsbD_eq fun i hi => ?_
  rw [BitVec.getLsbD_and, getLsbD_not_shiftLeft_allOnes n hi, BitVec.getLsbD_ofNat, Nat.testBit_mod_two_pow,
    BitVec.testBit_toNat, decide_eq_true hi, Bool.true_and, Bool.and_comm]

/-- A word moved up by n bits with the low n bits of another below it: the two have no bit in common, so `|` is `+`. -/
theorem shiftLeft_or_low (v low : Word) (n : Nat) :
    v <<< n ||| low &&& ~~~(0xFFFFFFFF#32 <<< n) = v * BitVec.ofNat 32 (2 ^ n) + BitVec.ofNat 32 (low.toNat % 2 ^ n) := by
  have hdisjoint : v <<< n &&& (low &&& ~~~(0xFFFFFFFF#32 <<< n)) = 0#32 := by
    refine BitVec.eq_of_getLsbD_eq fun i hi => ?_
    rw [BitVec.getLsbD_and, BitVec.getLsbD_and, getLsbD_not_shiftLeft_allOnes n hi, BitVec.getLsbD_shiftLeft]
    by_cases hin : i < n <;> simp [hin]
  have htwo : BitVec.twoPow 32 n = BitVec.ofNat 32 (2 ^ n) :=
    BitVec.eq_of_toNat_eq (by rw [BitVec.toNat_twoPow, BitVec.toNat_ofNat])
  rw [← BitVec.add_eq_or_of_and_eq_zero _ _ hdisjoint, and_not_shiftLeft_allOnes, BitVec.shiftLeft_eq_mul_twoPow, htwo]

theorem containerValue_sixteen (ub : BitVec 2) (v low : Word) : containerValue 16#8 ub v low = v := rfl

theorem containerValue_twenty (ub : BitVec 2) (v low : Word) : containerValue 20#8 ub v low = v * 16#32 :=
  BitVec.shiftLeft_eq_mul_twoPow v 4

theorem containerValue_deep {bits : BitVec 8} (h16 : bits ≠ 16#8) (h20 : bits ≠ 20#8) (ub : BitVec 2) (v low : Word) :
    containerValue bits ub v low =
      if ub = 0#2 then v
      else v * BitVec.ofNat 32 (2 ^ (8 * ub.toNat)) + BitVec.ofNat 32 (low.toNat % 2 ^ (8 * ub.toNat)) := by
  rw [containerValue, if_neg h16, if_neg h20, shiftLeft_or_low]

/-! ### The sizes of a frame (R22, R23, R27) -/

theorem State.slot_eq_div_mod (s : State) (c : Nat) : s.slot c = s.port.chmap.toNat / 16 ^ c % 16 := by
  rw [State.slot, BitVec.extractLsb'_toNat, Nat.shiftRight_eq_div_pow, pow_mul]
  rfl

theorem bytesPerSample_le_four (bits : BitVec 8) : bytesPerSample bits ≤ 4 := by
  rw [bytesPerSample]; split_ifs <;> decide

/-- A configuration is in bounds whether it is validated or clear. -/
theorem StreamCfg.Legal.bounds {c : StreamCfg} (h : c.Legal) : c.maxSamples.toNat ≤ 16364 ∧ c.numCh.toNat ≤ 8 := by
  by_cases hc : c.configured = true
  · rw [StreamCfg.Legal, if_pos hc] at h
    obtain ⟨-, hmax, -, -, hch⟩ := h
    exact ⟨hmax, hch⟩
  · rw [StreamCfg.Legal, if_neg hc] at h
    rw [h]
    decide

/-- The bytes of the largest frame are far below 2^32. -/
theorem State.frameSize_le {s : State} (h : s.cfg.Legal) :
    s.cfg.maxSamples.toNat * s.cfg.numCh.toNat * s.bps ≤ 16364 * 8 * 4 :=
  Nat.mul_le_mul (Nat.mul_le_mul h.bounds.1 h.bounds.2) (bytesPerSample_le_four _)

theorem State.frameStride_toNat {s : State} (h : s.cfg.Legal) :
    s.frameStride.toNat = s.cfg.numCh.toNat * s.bps := by
  have hle : s.cfg.numCh.toNat * s.bps ≤ 8 * 4 := Nat.mul_le_mul h.bounds.2 (bytesPerSample_le_four _)
  have hbps : s.bps ≤ 4 := bytesPerSample_le_four _
  rw [State.frameStride, BitVec.toNat_mul, BitVec.toNat_setWidth_of_le (by decide), BitVec.toNat_ofNat,
    Nat.mod_eq_of_lt (a := s.bps) (by omega), Nat.mod_eq_of_lt (by omega)]

theorem State.frameBytesMax_toNat {s : State} (h : s.cfg.Legal) :
    s.frameBytesMax.toNat = s.cfg.maxSamples.toNat * s.cfg.numCh.toNat * s.bps := by
  have hle := State.frameSize_le h
  rw [State.frameBytesMax, BitVec.toNat_mul, State.frameStride_toNat h, ← mul_assoc, Nat.mod_eq_of_lt (by omega)]

/-- The channel map of a core that may decode stays below the number of channels (R236). -/
theorem State.slot_lt_of_decodeReady {s : State} (h : s.decodeReady = true) {c : Nat} (hc : c < s.cfg.numCh.toNat) :
    s.slot c < s.cfg.numCh.toNat := by
  rw [State.decodeReady, Bool.and_eq_true, List.all_eq_true] at h
  exact of_decide_eq_true (h.2 c (List.mem_range.2 hc))

/-! ### Where a byte of a sample stands (R204) -/

theorem State.sampleAddr_add (s : State) (i c k : Nat) :
    s.sampleAddr i c + BitVec.ofNat 32 k =
      s.port.outAddr + BitVec.ofNat 32 ((i * s.cfg.numCh.toNat + s.slot c) * s.bps + k) := by
  rw [State.sampleAddr, BitVec.ofNat_add, BitVec.add_assoc]

/-- Quotient and remainder by d are unique. -/
theorem eq_and_eq_of_mul_add_eq {d q q' r r' : Nat} (hr : r < d) (hr' : r' < d) (h : q * d + r = q' * d + r') :
    q = q' ∧ r = r' := by
  have hd : 0 < d := by omega
  obtain ⟨hq, hm⟩ := (Nat.div_mod_unique (a := r + d * q) hd).2 ⟨rfl, hr⟩
  obtain ⟨hq', hm'⟩ := (Nat.div_mod_unique (a := r + d * q) (d := q') (c := r') hd).2 ⟨by linarith, hr'⟩
  exact ⟨hq.symm.trans hq', hm.symm.trans hm'⟩

section OutputBuffer

variable {s : State} {i j c d k l : Nat}

theorem State.sampleOffset_lt (hi : i < s.cfg.maxSamples.toNat) (hslot : s.slot c < s.cfg.numCh.toNat) (hk : k < s.bps) :
    (i * s.cfg.numCh.toNat + s.slot c) * s.bps + k < s.cfg.maxSamples.toNat * s.cfg.numCh.toNat * s.bps := by
  have hsample : i * s.cfg.numCh.toNat + s.slot c < s.cfg.maxSamples.toNat * s.cfg.numCh.toNat := by
    have := Nat.mul_le_mul_right s.cfg.numCh.toNat (Nat.succ_le_of_lt hi)
    rw [Nat.succ_mul] at this
    omega
  have := Nat.mul_le_mul_right s.bps (Nat.succ_le_of_lt hsample)
  rw [Nat.succ_mul] at this
  omega

/-- Two bytes of the frame stand at the same address only if they are the same byte of the same sample in the same slot. -/
theorem State.sampleAddr_add_inj (hcfg : s.cfg.Legal) (hi : i < s.cfg.maxSamples.toNat) (hj : j < s.cfg.maxSamples.toNat)
    (hc : s.slot c < s.cfg.numCh.toNat) (hd : s.slot d < s.cfg.numCh.toNat) (hk : k < s.bps) (hl : l < s.bps)
    (h : s.sampleAddr i c + BitVec.ofNat 32 k = s.sampleAddr j d + BitVec.ofNat 32 l) :
    i = j ∧ s.slot c = s.slot d ∧ k = l := by
  have hsize := State.frameSize_le hcfg
  have hik := State.sampleOffset_lt hi hc hk
  have hjl := State.sampleOffset_lt hj hd hl
  rw [State.sampleAddr_add, State.sampleAddr_add, BitVec.add_right_inj] at h
  have hoffset := congrArg BitVec.toNat h
  rw [BitVec.toNat_ofNat, BitVec.toNat_ofNat, Nat.mod_eq_of_lt (by omega), Nat.mod_eq_of_lt (by omega)] at hoffset
  obtain ⟨hsample, hkl⟩ := eq_and_eq_of_mul_add_eq hk hl hoffset
  obtain ⟨hij, hslot⟩ := eq_and_eq_of_mul_add_eq hc hd hsample
  exact ⟨hij, hslot, hkl⟩

end OutputBuffer

/-! ### The bytes an element writes (R214) -/

theorem State.sampleBytes_eq_flatMap (s : State) (i c : Nat) (v low : Word) :
    s.sampleBytes i c v low = (List.range s.bps).flatMap fun k =>
      [(s.sampleAddr i c + BitVec.ofNat 32 k, (containerValue s.cfg.bits s.parser.ub v low).extractLsb' (8 * k) 8)] := by
  rw [← List.map_eq_flatMap, State.sampleBytes, leBytes]
  refine List.ext_getElem (by simp) fun k h h' => by simp

theorem State.mem_sampleBytes {s : State} {i c : Nat} {v low : Word} {w : Word × Byte} (h : w ∈ s.sampleBytes i c v low) :
    ∃ k < s.bps, w.1 = s.sampleAddr i c + BitVec.ofNat 32 k := by
  rw [State.sampleBytes_eq_flatMap, List.mem_flatMap] at h
  obtain ⟨k, hk, hw⟩ := h
  rw [List.mem_singleton.1 hw]
  exact ⟨k, List.mem_range.1 hk, rfl⟩

theorem State.mem_frameBytes {s : State} {i : Nat} {w : Word × Byte} (h : w ∈ s.frameBytes i) :
    ∃ ch < s.nch, ∃ k < s.bps, w.1 = s.sampleAddr i (s.parser.ci + ch) + BitVec.ofNat 32 k := by
  rw [State.frameBytes, List.mem_flatMap] at h
  obtain ⟨⟨vl, ch⟩, hmem, hw⟩ := h
  have hch := List.snd_lt_of_mem_zipIdx hmem
  rw [List.length_zip, State.length_channelValues] at hch
  exact ⟨ch, by omega, State.mem_sampleBytes hw⟩

/-- Writes in groups: what group i writes at an address is read there afterwards if no later group writes there. -/
theorem Memory.read_writeAll_flatMap {α : Type} {items : List α} {group : α → List (Word × Byte)} {m m' : Memory} {i : Nat}
    {x : α} {a : Word} {b : Byte} (hw : m.writeAll (items.flatMap group) = some m') (hx : items[i]? = some x)
    (hin : ∀ m₁ m₂ : Memory, m₁.writeAll (group x) = some m₂ → m₂.read a = some b)
    (hlater : ∀ (j : Nat) (hj : j < items.length), i < j → ∀ w ∈ group items[j], w.1 ≠ a) : m'.read a = some b := by
  induction items generalizing i m with
  | nil => cases hx
  | cons y rest ih =>
    rw [List.flatMap_cons, Memory.writeAll_append, Option.bind_eq_some_iff] at hw
    obtain ⟨m₁, hfirst, hrest⟩ := hw
    cases i with
    | zero =>
      cases hx
      rw [Memory.read_writeAll_other hrest, hin m m₁ hfirst]
      intro w hmem
      obtain ⟨z, hz, hwz⟩ := List.mem_flatMap.1 hmem
      obtain ⟨j, hj, rfl⟩ := List.mem_iff_getElem.1 hz
      exact hlater (j + 1) (Nat.succ_lt_succ hj) j.succ_pos w hwz
    | succ i => exact ih hrest hx fun j hj hij => hlater (j + 1) (Nat.succ_lt_succ hj) (Nat.succ_lt_succ hij)

theorem Memory.read_writeAll_singleton {m m' : Memory} {a : Word} {b : Byte} (hw : m.writeAll [(a, b)] = some m') :
    m'.read a = some b := by
  rw [Memory.writeAll, Option.bind_eq_some_iff] at hw
  obtain ⟨m₁, h₁, h₂⟩ := hw
  cases h₂
  exact Memory.read_write_same h₁

/-- What the end of an element leaves in memory (R238). -/
theorem finishElement_writes {s t : State} (h : finishElement s = .ok () t) :
    s.mem.writeAll s.elementBytes = some t.mem := by
  obtain ⟨hstuck, -⟩ | ⟨m, hm, hok⟩ := finishElement_cases s
  · rw [hstuck] at h; cases h
  · rw [hok] at h; cases h; exact hm

section ReadBack

variable {s : State} {m m' : Memory} {i c ch k : Nat} {v low : Word}

/-- The bytes of one sample are at different addresses, so each is read back. -/
theorem State.read_sampleBytes (hcfg : s.cfg.Legal) (hi : i < s.cfg.maxSamples.toNat)
    (hslot : s.slot c < s.cfg.numCh.toNat) (hk : k < s.bps) (hw : m.writeAll (s.sampleBytes i c v low) = some m') :
    m'.read (s.sampleAddr i c + BitVec.ofNat 32 k) =
      some ((containerValue s.cfg.bits s.parser.ub v low).extractLsb' (8 * k) 8) := by
  rw [State.sampleBytes_eq_flatMap] at hw
  refine Memory.read_writeAll_flatMap hw (List.getElem?_range hk) (fun _ _ => Memory.read_writeAll_singleton) ?_
  intro l hl hkl w hmem haddr
  rw [List.length_range] at hl
  rw [List.getElem_range, List.mem_singleton] at hmem
  rw [hmem] at haddr
  obtain ⟨-, -, rfl⟩ := State.sampleAddr_add_inj hcfg hi hi hslot hslot hl hk haddr
  exact hkl.false

variable (hcfg : s.cfg.Legal) (hslot : ∀ d < s.nch, s.slot (s.parser.ci + d) < s.cfg.numCh.toNat) (hk : k < s.bps)
  (hv : (s.channelValues i)[ch]? = some v) (hlow : (s.lowValues i)[ch]? = some low)
  (hshared : ∀ d < s.nch, ch < d → s.slot (s.parser.ci + ch) ≠ s.slot (s.parser.ci + d))

include hcfg hslot hk hv hlow hshared

/-- In the bytes of sample i a channel is overwritten only by a later channel with its slot. -/
theorem State.read_frameBytes (hi : i < s.cfg.maxSamples.toNat) (hw : m.writeAll (s.frameBytes i) = some m') :
    m'.read (s.sampleAddr i (s.parser.ci + ch) + BitVec.ofNat 32 k) =
      some ((containerValue s.cfg.bits s.parser.ub v low).extractLsb' (8 * k) 8) := by
  have hch := State.lt_nch_of_channelValues hv
  have hitem : ((s.channelValues i).zip (s.lowValues i)).zipIdx[ch]? = some ((v, low), ch) := by
    rw [List.getElem?_zipIdx, List.getElem?_zip_eq_some (z := (v, low)).2 ⟨hv, hlow⟩]
    simp
  refine Memory.read_writeAll_flatMap hw hitem
    (fun _ _ => State.read_sampleBytes hcfg hi (hslot ch hch) hk) ?_
  intro d hd hcd w hmem haddr
  rw [List.length_zipIdx, List.length_zip, State.length_channelValues] at hd
  have hdn : d < s.nch := by omega
  rw [List.getElem_zipIdx, Nat.zero_add] at hmem
  obtain ⟨l, hl, hwl⟩ := State.mem_sampleBytes hmem
  rw [haddr] at hwl
  obtain ⟨-, hsame, -⟩ := State.sampleAddr_add_inj hcfg hi hi (hslot ch hch) (hslot d hdn) hk hl hwl
  exact hshared d hdn hcd hsame

/-- No later sample of the element overwrites a byte of sample i. -/
theorem State.read_elementBytes (hn : s.parser.n.toNat ≤ s.cfg.maxSamples.toNat) (hi : i < s.parser.n.toNat)
    (hw : m.writeAll s.elementBytes = some m') :
    m'.read (s.sampleAddr i (s.parser.ci + ch) + BitVec.ofNat 32 k) =
      some ((containerValue s.cfg.bits s.parser.ub v low).extractLsb' (8 * k) 8) := by
  have hch := State.lt_nch_of_channelValues hv
  refine Memory.read_writeAll_flatMap hw (List.getElem?_range hi)
    (fun _ _ => State.read_frameBytes hcfg hslot hk hv hlow hshared (hi.trans_le hn)) ?_
  intro j hj hij w hmem haddr
  rw [List.length_range] at hj
  rw [List.getElem_range] at hmem
  obtain ⟨d, hd, l, hl, hwl⟩ := State.mem_frameBytes hmem
  rw [haddr] at hwl
  obtain ⟨rfl, -, -⟩ :=
    State.sampleAddr_add_inj hcfg (hi.trans_le hn) (hj.trans_le hn) (hslot ch hch) (hslot d hd) hk hl hwl
  exact hij.false

end ReadBack

end Sys2Proof.Machine

namespace Sys2Proof.Proofs
open Sys2Proof.Machine

/-- Settles O46: the unmix by its weight; addition commutes with the cut to 16 bits; the values by the kind of element. -/
theorem unmixFormula : Obligations.UnmixFormula := by
  refine ⟨fun w sh a b => ⟨?_, fun hw => unmix_of_ne_zero hw sh a b, ?_⟩, fun s i a b hcpe ha hb => ?_, fun s i a b => ?_⟩
  · rintro rfl
    exact unmix_of_zero sh a b
  · split
    case isTrue hw => rw [hw, unmix_of_zero]
    case isFalse hw => rw [unmix_of_ne_zero hw, BitVec.setWidth_add _ _ (by decide)]
  · rw [State.channelValues_of_pair hcpe, scratchAt_of_getElem? ha, scratchAt_of_getElem? hb]
  · refine ⟨fun hmono ha => ?_, fun ha => ⟨fun hmono => ?_, fun hcpe hb => ?_⟩⟩
    · rw [State.channelValues_of_mono hmono, scratchAt_of_getElem? ha]
    · rw [State.lowValues_of_mono hmono, scratchAt_of_getElem? ha]
    · rw [State.lowValues_of_pair hcpe, scratchAt_of_getElem? ha, scratchAt_of_getElem? hb]

/-- Settles O47: the container value of each depth as arithmetic, and the sizes of a legal frame, which do not wrap. -/
theorem containerBytes : Obligations.ContainerBytes := by
  refine ⟨fun ub v low => ⟨rfl, ?_, ?_⟩, by decide, fun s => ⟨rfl, fun hcfg => ?_, s.slot_eq_div_mod⟩⟩
  · rw [containerValue_twenty]; rfl
  · rw [containerValue_deep (by decide) (by decide), containerValue_deep (by decide) (by decide)]
    exact ⟨rfl, rfl⟩
  · exact ⟨State.frameStride_toNat hcfg, State.frameBytesMax_toNat hcfg⟩

/-- Settles O48: of the writes after a byte only those of a second channel with the same slot can reach its address. -/
theorem outputReadsBack : Obligations.OutputReadsBack := by
  intro s t hcfg hready hn hchannels hfinish i ch k v low hi hk hv hlow hslots
  rw [← State.sampleAddr_add]
  refine State.read_elementBytes hcfg (fun d hd => State.slot_lt_of_decodeReady hready (by omega)) hk hv hlow
    (fun d hd hlt => ?_) hn hi (finishElement_writes hfinish)
  have htwo := s.nch_le_two
  obtain ⟨rfl, rfl⟩ : ch = 0 ∧ d = 1 := by omega
  exact hslots rfl (by omega)

end Sys2Proof.Proofs
end

section
/-! The frame parser (family 46_frame_parser.md): the cookie CONFIGURE reads, the end of a frame, and the tags that are not
supported. -/

namespace Sys2Proof.Machine

/-! ### The cookie (R231) -/

theorem mapM_eq_some_map {α β : Type} {f : α → Option β} {g : α → β} {l : List α} (h : ∀ x ∈ l, f x = some (g x)) :
    l.mapM f = some (l.map g) := by
  induction l with
  | nil => rfl
  | cons x l ih =>
    rw [List.forall_mem_cons] at h
    rw [List.mapM_cons, h.1, ih h.2]
    rfl

/-- A cookie whose ten first bytes can be read is the list of them. -/
theorem State.cookie_eq {s : State} {b : Nat → Byte}
    (h : ∀ j < 10, s.mem.read (s.port.cookieAddr + BitVec.ofNat 32 j) = some (b j)) :
    s.cookie = some ((List.range 10).map b) :=
  mapM_eq_some_map fun j hj => h j (List.mem_range.1 hj)

theorem cookieByte_map_range (b : Nat → Byte) {j : Nat} (hj : j < 10) :
    cookieByte ((List.range 10).map b) j = b j := by
  simp [cookieByte, hj]

/-- Two words put together, as a number. -/
theorem toNat_append_eq_add {m n : Nat} (x : BitVec m) (y : BitVec n) : (x ++ y).toNat = x.toNat * 2 ^ n + y.toNat := by
  rw [BitVec.toNat_append, ← Nat.shiftLeft_add_eq_or_of_lt y.isLt, Nat.shiftLeft_eq]

/-- `max_samples_per_frame` is big-endian (R63). -/
theorem cookieMax_toNat (l : List Byte) :
    (cookieMax l).toNat =
      (cookieByte l 0).toNat * 2 ^ 24 + (cookieByte l 1).toNat * 2 ^ 16 + (cookieByte l 2).toNat * 2 ^ 8 +
        (cookieByte l 3).toNat := by
  rw [cookieMax, toNat_append_eq_add, toNat_append_eq_add, toNat_append_eq_add]
  ring

theorem mem_bitDepths_iff (d : Byte) : d ∈ Config.bitDepths ↔ d.toNat ∈ [16, 20, 24, 32] := by
  simp [Config.bitDepths, BitVec.toNat_eq]

theorem cookieLegal_iff (l : List Byte) :
    cookieLegal l = true ↔
      1 ≤ (cookieMax l).toNat ∧ (cookieMax l).toNat ≤ 16364 ∧ cookieByte l 4 = 0#8 ∧
        (cookieByte l 5).toNat ∈ [16, 20, 24, 32] ∧ 1 ≤ (cookieByte l 9).toNat ∧ (cookieByte l 9).toNat ≤ 8 := by
  have hpos {w : Nat} (x : BitVec w) : x ≠ 0#w ↔ 1 ≤ x.toNat := by
    rw [Nat.one_le_iff_ne_zero, ne_eq, BitVec.toNat_eq, BitVec.toNat_ofNat, Nat.zero_mod]
  simp only [cookieLegal, Bool.and_eq_true, bne_iff_ne, beq_iff_eq, decide_eq_true_eq, List.contains_iff_mem,
    mem_bitDepths_iff, hpos, and_assoc]
  rfl

/-- The frame size the cookie bytes b 0 … b 3 stand for. -/
def cookieMs (b : Nat → Byte) : Nat :=
  (b 0).toNat * 2 ^ 24 + (b 1).toNat * 2 ^ 16 + (b 2).toNat * 2 ^ 8 + (b 3).toNat

theorem cookieMax_map_range (b : Nat → Byte) : (cookieMax ((List.range 10).map b)).toNat = cookieMs b := by
  simp only [cookieMax_toNat, cookieByte_map_range, Nat.reduceLT, cookieMs]

theorem cookieCfg_map_range (b : Nat → Byte) : cookieCfg ((List.range 10).map b) =
      ⟨BitVec.ofNat 32 (cookieMs b), b 5, b 6, b 7, b 8, b 9, true⟩ := by
  simp only [cookieCfg, cookieByte_map_range, Nat.reduceLT, ← cookieMax_map_range, BitVec.ofNat_toNat,
    BitVec.setWidth_eq]

/-- CONFIGURE on a legal cookie (R232). -/
theorem exec_configure_of_legal {s : State} {l : List Byte} (hlen : 12 ≤ s.port.cookieLen.toNat)
    (hcookie : s.cookie = some l) (hlegal : cookieLegal l = true) :
    exec (.configure 0#6 0#6) s = .next
      { s with
        cfg := cookieCfg l
        ch0 := { s.ch0 with res := [], smp := [], low := [] }
        ch1 := { s.ch1 with res := [], smp := [], low := [] }
        port := { s.port with busy := false, done := true, err := 0#4 }
        stage := .idle } := by
  have hargs : argsZero 0#6 0#6 = true := rfl
  rw [exec, execConfigure, configureBody, hargs, require_true, Res.bind_ok,
    if_neg (show ¬ s.port.cookieLen.toNat < Config.cookieMinBytes from not_lt.2 hlen)]
  simp only [hcookie, if_pos hlegal, Res.outcome_ok]
  rfl

end Sys2Proof.Machine

namespace Sys2Proof.Proofs
open Sys2Proof.Machine

/-- Settles O21: the ten bytes read are the cookie, and what is assumed of them is what R231 checks. -/
theorem configureLoadsCookie : Obligations.ConfigureLoadsCookie := by
  intro s b ms hlen hread hms hmax hversion hdepth hch hch8
  have hlegal : cookieLegal ((List.range 10).map b) = true := by
    rw [cookieLegal_iff, cookieMax_map_range]
    simp only [cookieByte_map_range, Nat.reduceLT]
    exact ⟨hms, hmax, hversion, hdepth, hch, hch8⟩
  rw [exec_configure_of_legal hlen (State.cookie_eq hread) hlegal, cookieCfg_map_range]
  rfl

/-- Settles O51: the cursor at a byte boundary is at the end of the input exactly when its byte index is `IN_LEN`. -/
theorem endChecksTrailingBytes : Obligations.EndChecksTrailingBytes := by
  intro s q hend hq
  have hle : q ≤ s.endPos := by simp only [q, State.endPos] at *; omega
  have hcount : ((s.cursorAt q).cursor.byteIdx == s.port.inLen) = decide (q = s.endPos) := by
    have hidx : (s.cursorAt q).cursor.byteIdx.toNat = q / 8 := s.cursorAt_byteIdx (by omega)
    rw [Bool.beq_eq_decide_eq, decide_eq_decide, BitVec.toNat_eq, hidx]
    simp only [q, State.endPos]
    omega
  have halign : align (s.setParser { s.parser with state := .endCheck }) =
      .ok () ((s.setParser { s.parser with state := .endCheck }).cursorAt q) := by
    rw [align_eq]
    exact checkEnd_cursorAt_of_le hle hq
  rw [exec, execEnd, endBody, halign, Res.bind_ok]
  change (Res.bind (require ((s.cursorAt q).cursor.byteIdx == s.port.inLen) _ _) _).outcome = _
  rw [hcount]
  split
  · rename_i h; rw [decide_eq_true h]; rfl
  · rename_i h; rw [decide_eq_false h]; rfl

/-- Settles O49: both tags raise before any field is read. -/
theorem unsupportedTagsRaise : Obligations.UnsupportedTagsRaise := fun _ => ⟨rfl, rfl⟩

end Sys2Proof.Proofs
end

section
/-! The not-compressed elements (family 46_frame_parser.md): one raw sample, the raw samples of a CPE as an induction on the
sample times, what the element does after its header, and its samples in the output buffer. -/

namespace Sys2Proof.Machine

/-! ### The sample size, and the input under a write of the parser registers -/

theorem StreamCfg.Legal.bits_le {c : StreamCfg} (h : c.Legal) : c.bits.toNat ≤ 32 := by
  by_cases hc : c.configured = true
  · rw [StreamCfg.Legal, if_pos hc] at h
    obtain ⟨-, -, hbits, -⟩ := h
    have hdepths : ∀ d ∈ [16#8, 20#8, 24#8, 32#8], d.toNat ≤ 32 := by decide
    exact hdepths _ hbits
  · rw [StreamCfg.Legal, if_neg hc] at h
    rw [h]
    decide

@[simp] theorem State.setParser_streamNat (s : State) (q : Parser) (p n : Nat) :
    (s.setParser q).streamNat p n = s.streamNat p n := by
  induction n with
  | zero => rfl
  | succ n ih => rw [State.streamNat, State.streamNat, ih]; rfl

@[simp] theorem State.setParser_streamWord (s : State) (q : Parser) (p n : Nat) :
    (s.setParser q).streamWord p n = s.streamWord p n := by
  rw [State.streamWord, State.setParser_streamNat, State.streamWord]

/-! ### One raw sample (R249) -/

/-- A number read in two parts (R62). -/
theorem State.streamNat_add (s : State) (p n m : Nat) :
    s.streamNat p (n + m) = s.streamNat p n <<< m ||| s.streamNat (p + n) m := by
  refine Nat.eq_of_testBit_eq fun i => ?_
  simp only [Nat.testBit_or, Nat.testBit_shiftLeft, State.testBit_streamNat]
  by_cases hlow : i < m
  · have hpos : p + n + (m - 1 - i) = p + (n + m - 1 - i) := by omega
    have hlt : i < n + m := by omega
    simp [hlow, hlt, hpos]
  · have hpos : n - 1 - (i - m) = n + m - 1 - i := by omega
    have hlt : i - m < n ↔ i < n + m := by omega
    simp [hlow, Nat.le_of_not_lt hlow, hlt, hpos]

theorem State.streamWord_add (s : State) (p n m : Nat) :
    s.streamWord p (n + m) = s.streamWord p n <<< m ||| s.streamWord (p + n) m := by
  simp only [State.streamWord, State.streamNat_add, BitVec.ofNat_or]
  congr 1
  refine BitVec.eq_of_toNat_eq ?_
  simp [BitVec.toNat_shiftLeft, Nat.shiftLeft_eq]

theorem readBits_cursorAt_of_inside {s : State} {p n : Nat} (hn : n ≤ 32) (hr : s.InputReadable)
    (hend : p + n ≤ s.endPos) (hlt : p + n < 2 ^ 34) :
    readBits n (s.cursorAt p) = .ok (s.streamWord p n) (s.cursorAt (p + n)) := by
  have hpos : (s.cursorAt p).pos = p := State.cursorAt_pos _ (by omega)
  have hcan : (s.cursorAt p).CanRead n := ⟨hr, by rwa [hpos], by rwa [hpos]⟩
  rw [readBits_eq_ok hn hcan, hpos, State.cursorAt_streamWord, State.cursorAt_cursorAt]

section RawSample

variable {s : State} {p size : Nat} (hsize : size ≤ 32) (hr : s.InputReadable)

include hsize hr

/-- A raw sample is the S-bit number at the cursor, sign-extended, whether it is read in one part or in two. -/
theorem rawSample_cursorAt_eq_ok (hend : p + size ≤ s.endPos) (hlt : p + size < 2 ^ 34) :
    rawSample size (s.cursorAt p) = .ok (sext size (s.streamWord p size)) (s.cursorAt (p + size)) := by
  unfold rawSample
  split
  · rw [readBits_cursorAt_of_inside hsize hr hend hlt, Res.bind_ok]
  · obtain ⟨m, rfl⟩ : ∃ m, size = 16 + m := ⟨size - 16, by omega⟩
    rw [Nat.add_sub_cancel_left, readBits_cursorAt_of_inside (by omega) hr (by omega) (by omega), Res.bind_ok,
      readBits_cursorAt_of_inside (by omega) hr (by omega) (by omega), Res.bind_ok, State.streamWord_add, Nat.add_assoc]

/-- A raw sample that runs past the end leaves the cursor beyond it by at most one part of 16 bits. -/
theorem rawSample_cursorAt_raised (hmax : s.endPos < 2 ^ 34) (hin : p ≤ s.endPos) (hend : s.endPos < p + size) :
    ∃ q, s.endPos < q ∧ q ≤ s.endPos + 16 ∧ q ≤ p + size ∧
      rawSample size (s.cursorAt p) = .raised .malformedStream (s.cursorAt q) := by
  unfold rawSample
  split
  · obtain ⟨q, hpast, hle, hread⟩ := readBits_cursorAt_raised hsize hr hmax hin hend
    exact ⟨q, hpast, by omega, hle, by rw [hread, Res.bind_raised]⟩
  · by_cases hhigh : s.endPos < p + 16
    · obtain ⟨q, hpast, hle, hread⟩ := readBits_cursorAt_raised (by omega) hr hmax hin hhigh
      exact ⟨q, hpast, by omega, by omega, by rw [hread, Res.bind_raised]⟩
    · obtain ⟨q, hpast, hle, hread⟩ :=
        readBits_cursorAt_raised (n := size - 16) (p := p + 16) (by omega) hr hmax (by omega) (by omega)
      refine ⟨q, hpast, by omega, by omega, ?_⟩
      rw [readBits_cursorAt_of_inside (by omega) hr (by omega) (by omega), Res.bind_ok, hread, Res.bind_raised]

end RawSample

/-! ### The raw samples of a CPE (R248, R250) -/

section RawPairs

variable {s : State} {p n size : Nat} {bug : Bool}

/-- The two samples at bit position p; where the defect applies the second is the first. -/
def State.rawPair (s : State) (size : Nat) (bug : Bool) (p : Nat) : Word × Word :=
  (sext size (s.streamWord p size),
    if bug then sext size (s.streamWord p size) else sext size (s.streamWord (p + size) size))

@[simp] theorem State.setParser_rawPair (s : State) (q : Parser) (p : Nat) :
    (s.setParser q).rawPair size bug p = s.rawPair size bug p := by
  simp only [State.rawPair, State.setParser_streamWord]

/-- The pairs of n sample times from the cursor on. -/
def State.rawPairs (s : State) (size : Nat) (bug : Bool) (n : Nat) : List (Word × Word) :=
  (List.range n).map fun j => s.rawPair size bug (s.pos + j * (2 * size))

theorem State.map_fst_rawPairs (s : State) :
    (s.rawPairs size bug n).map (·.1) =
      (List.range n).map fun j => sext size (s.streamWord (s.pos + j * (2 * size)) size) := by
  rw [State.rawPairs, List.map_map]
  rfl

theorem State.map_snd_rawPairs_of_bug (s : State) (hbug : bug = true) :
    (s.rawPairs size bug n).map (·.2) = (s.rawPairs size bug n).map (·.1) := by
  rw [State.map_fst_rawPairs, State.rawPairs, List.map_map, hbug]
  rfl

theorem State.map_snd_rawPairs_of_not_bug (s : State) (hbug : ¬ bug = true) :
    (s.rawPairs size bug n).map (·.2) =
      (List.range n).map fun j => sext size (s.streamWord (s.pos + j * (2 * size) + size) size) := by
  rw [State.rawPairs, List.map_map, Bool.eq_false_iff.2 hbug]
  rfl

@[simp] theorem State.setParser_rawPairs (s : State) (q : Parser) :
    (s.setParser q).rawPairs size bug n = s.rawPairs size bug n := by
  simp only [State.rawPairs, State.setParser_pos, State.setParser_rawPair]

@[simp] theorem State.length_rawPairs (s : State) : (s.rawPairs size bug n).length = n := by
  rw [State.rawPairs, List.length_map, List.length_range]

theorem rawSamples_two_succ (s : State) :
    rawSamples 2 size bug (n + 1) s =
      (rawSample size s).bind fun a s => (rawSample size s).bind fun b s =>
        (rawSamples 2 size bug n s).bind fun l s => .ok ((a, if bug then a else b) :: l) s := rfl

/-- Each sample time is two raw samples, one after the other (R248, R250). -/
theorem rawSamples_two_eq_ok (hsize : size ≤ 32) (hr : s.InputReadable) (hend : p + n * (2 * size) ≤ s.endPos)
    (hlt : p + n * (2 * size) < 2 ^ 34) :
    rawSamples 2 size bug n (s.cursorAt p) =
      .ok ((List.range n).map fun j => s.rawPair size bug (p + j * (2 * size))) (s.cursorAt (p + n * (2 * size))) := by
  induction n generalizing p with
  | zero => simp [rawSamples]
  | succ n ih =>
    have hsplit : p + (n + 1) * (2 * size) = p + size + size + n * (2 * size) := by ring
    rw [hsplit] at hend hlt ⊢
    have hrest (j : Nat) : p + size + size + j * (2 * size) = p + (j + 1) * (2 * size) := by ring
    rw [rawSamples_two_succ, rawSample_cursorAt_eq_ok hsize hr (by omega) (by omega), Res.bind_ok,
      rawSample_cursorAt_eq_ok hsize hr (by omega) (by omega), Res.bind_ok, ih hend hlt, Res.bind_ok,
      List.range_succ_eq_map, List.map_cons, List.map_map]
    simp only [hrest, Function.comp_def, State.rawPair, Nat.zero_mul, Nat.add_zero]

/-- Of samples that run past the end, one is the first to do so, and no later one is read (R127, R284). -/
theorem rawSamples_two_raised (hsize : size ≤ 32) (hr : s.InputReadable) (hmax : s.endPos < 2 ^ 34) (hin : p ≤ s.endPos)
    (hend : s.endPos < p + n * (2 * size)) :
    ∃ q, s.endPos < q ∧ q ≤ s.endPos + 16 ∧ q ≤ p + n * (2 * size) ∧
      rawSamples 2 size bug n (s.cursorAt p) = .raised .malformedStream (s.cursorAt q) := by
  induction n generalizing p with
  | zero => omega
  | succ n ih =>
    have hsplit : p + (n + 1) * (2 * size) = p + size + size + n * (2 * size) := by ring
    rw [hsplit] at hend ⊢
    rw [rawSamples_two_succ]
    by_cases hfirst : s.endPos < p + size
    · obtain ⟨q, hpast, hpart, hle, hread⟩ := rawSample_cursorAt_raised hsize hr hmax hin hfirst
      exact ⟨q, hpast, hpart, by omega, by rw [hread, Res.bind_raised]⟩
    rw [rawSample_cursorAt_eq_ok hsize hr (by omega) (by omega), Res.bind_ok]
    by_cases hsecond : s.endPos < p + size + size
    · obtain ⟨q, hpast, hpart, hle, hread⟩ := rawSample_cursorAt_raised hsize hr hmax (by omega) hsecond
      exact ⟨q, hpast, hpart, by omega, by rw [hread, Res.bind_raised]⟩
    rw [rawSample_cursorAt_eq_ok hsize hr (by omega) (by omega), Res.bind_ok]
    obtain ⟨q, hpast, hpart, hle, hread⟩ := ih (by omega) hend
    exact ⟨q, hpast, hpart, hle, by rw [hread, Res.bind_raised]⟩

theorem rawSamples_two_of_canRead (hsize : size ≤ 32) (hcan : s.CanRead (n * (2 * size))) :
    rawSamples 2 size bug n s = .ok (s.rawPairs size bug n) (s.cursorAt (s.pos + n * (2 * size))) := by
  have hread := rawSamples_two_eq_ok (bug := bug) hsize hcan.1 hcan.2.1 hcan.2.2
  rwa [State.cursorAt_self] at hread

end RawPairs

/-! ### The element after its header (R239, R240, R248, R255) -/

theorem require_of_eq_true {c : Bool} (h : c = true) (e : ErrKind) (s : State) : require c e s = .ok () s := by
  rw [h, require_true]

/-- The parser registers of an audio element after its header and its checks: the header's fields, and the high-water mark
raised. -/
def State.withHeader (s : State) (st : ParserState) (h : AudioHeader) : State :=
  s.setParser
    { s.parser with
      state := st
      hasSize := h.count.isSome
      ub := h.ub
      esc := h.esc
      n := h.count.getD s.cfg.maxSamples
      hwm := maxHwm s.parser.hwm (h.count.getD s.cfg.maxSamples * s.frameStride) }

/-- An audio element within the sample count and the channels of the configuration comes to its body. -/
theorem audioBody_of_checks {s : State} {st : ParserState} {h : AudioHeader}
    (hcount : (h.count.getD s.cfg.maxSamples).toNat ≤ s.cfg.maxSamples.toNat)
    (hch : s.parser.ci + (s.withHeader st h).nch ≤ s.cfg.numCh.toNat) :
    audioBody st h s = if h.esc then escapedBody (s.withHeader st h) else compressedBody (s.withHeader st h) := by
  have hfits : (!s.cfg.maxSamples.ult (h.count.getD s.cfg.maxSamples)) = true := by
    rw [BitVec.ult_eq_decide, Bool.not_eq_true', decide_eq_false_iff_not, not_lt]
    exact hcount
  unfold audioBody
  dsimp only
  rw [require_of_eq_true, Res.bind_ok, require_of_eq_true, Res.bind_ok]
  · rfl
  · exact decide_eq_true hch
  · exact hfits

/-- The registers with which a not-compressed element reads its samples: `UB` and the mix fields are 0 (R248). -/
def State.unmixed (s : State) : State := s.setParser { s.parser with ub := 0#2, mixShift := 0#8, mixWeight := 0#8 }

/-- The samples of the element in the scratch buffers of its channels. -/
def State.storeSamples (s : State) (l : List (Word × Word)) : State :=
  if s.nch = 2 then
    { s with ch0 := { s.ch0 with smp := l.map (·.1) }, ch1 := { s.ch1 with smp := l.map (·.2) } }
  else { s with ch0 := { s.ch0 with smp := l.map (·.1) } }

theorem State.storeSamples_of_pair {s : State} (h : s.nch = 2) (l : List (Word × Word)) :
    s.storeSamples l =
      { s with ch0 := { s.ch0 with smp := l.map (·.1) }, ch1 := { s.ch1 with smp := l.map (·.2) } } := if_pos h

theorem escapedBody_eq (s : State) :
    escapedBody s =
      (rawSamples s.nch s.cfg.bits.toNat (escBugOn s.params.escBug s.cfg.bits.toNat) s.parser.n.toNat s.unmixed).bind
        fun l t => finishElement (t.storeSamples l) := rfl

/-- The state of a not-compressed CPE after its samples, when it writes its output. -/
def State.afterPairs (s : State) (h : AudioHeader) (size : Nat) (bug : Bool) (n : Nat) : State :=
  { (s.withHeader .cpe h).unmixed.cursorAt (s.pos + n * (2 * size)) with
    ch0 := { s.ch0 with smp := (s.rawPairs size bug n).map (·.1) }
    ch1 := { s.ch1 with smp := (s.rawPairs size bug n).map (·.2) } }

theorem State.afterPairs_pos (s : State) (h : AudioHeader) {size n : Nat} (bug : Bool)
    (hlt : s.pos + n * (2 * size) < 2 ^ 35) : (s.afterPairs h size bug n).pos = s.pos + n * (2 * size) :=
  State.cursorAt_pos (s.withHeader .cpe h).unmixed hlt

section Cpe

variable {s : State} {h : AudioHeader} {n size : Nat} {bug : Bool} (hesc : h.esc = true)
  (hcount : (h.count.getD s.cfg.maxSamples).toNat ≤ s.cfg.maxSamples.toNat)
  (hch : s.parser.ci + 2 ≤ s.cfg.numCh.toNat) (hn : (h.count.getD s.cfg.maxSamples).toNat = n)
  (hbits : s.cfg.bits.toNat = size) (hsize : size ≤ 32) (hbug : escBugOn s.params.escBug size = bug)

include hesc hcount hch hn hbits hbug

/-- A not-compressed CPE that passes its checks reads its pairs, stores them and ends. -/
theorem exec_cpe_of_escaped :
    exec (.cpe h) s = ((rawSamples 2 size bug n (s.withHeader .cpe h).unmixed).bind
      fun l t => finishElement (t.storeSamples l)).outcome := by
  subst hn hbits hbug
  rw [exec, execCpe, audioBody_of_checks (st := .cpe) hcount hch, if_pos hesc, escapedBody_eq]
  rfl

include hsize

theorem exec_cpe_of_canRead (hcan : s.CanRead (n * (2 * size))) :
    exec (.cpe h) s = (finishElement (s.afterPairs h size bug n)).outcome := by
  have hread := rawSamples_two_of_canRead (s := (s.withHeader .cpe h).unmixed) (bug := bug) hsize hcan
  rw [exec_cpe_of_escaped hesc hcount hch hn hbits hbug, hread, Res.bind_ok, State.storeSamples_of_pair rfl,
    State.unmixed, State.setParser_rawPairs, State.withHeader, State.setParser_rawPairs]
  rfl

theorem exec_cpe_raised (hr : s.InputReadable) (hpos : s.pos ≤ s.endPos) (hmax : s.endPos < 2 ^ 34)
    (hend : s.endPos < s.pos + n * (2 * size)) :
    ∃ q, s.endPos < q ∧ q ≤ s.endPos + 16 ∧ q ≤ s.pos + n * (2 * size) ∧
      exec (.cpe h) s = .next ((s.cursorAt q).raiseError .malformedStream) := by
  obtain ⟨q, hpast, hpart, hle, hread⟩ :=
    rawSamples_two_raised (s := (s.withHeader .cpe h).unmixed) (p := s.pos) (bug := bug) hsize hr hmax hpos hend
  have hstart : (s.withHeader .cpe h).unmixed.cursorAt s.pos = (s.withHeader .cpe h).unmixed := State.cursorAt_self _
  rw [hstart] at hread
  refine ⟨q, hpast, hpart, hle, ?_⟩
  rw [exec_cpe_of_escaped hesc hcount hch hn hbits hbug, hread]
  rfl

end Cpe

/-- Where every address is served an element ends (R238, R256). -/
theorem finishElement_of_served {s : State} (h : s.mem.unserved = []) :
    ∃ m, s.mem.writeAll s.elementBytes = some m ∧
      finishElement s = .ok () (((s.setMem m).setParser
        { s.parser with ci := s.parser.ci + s.nch, state := .fetchTag }).goto .element .c0) := by
  obtain ⟨-, hnone⟩ | hok := finishElement_cases s
  · exact absurd hnone (writeAll_ne_none h _)
  · exact hok

/-! ### The samples in the output buffer (R201, R204 to R208, R214) -/

/-- With no low-bit planes the low-bit value does not reach the container (R207, R208). -/
theorem containerValue_of_ub_zero (bits : BitVec 8) (v low : Word) :
    containerValue bits 0#2 v low = containerValue bits 0#2 v 0#32 := by
  simp only [containerValue, if_true]

/-- The samples of a pair that is not mixed stand in the slots of its two channels; where the slots are equal, channel 1's. -/
theorem State.read_pair {s : State} {m m' : Memory} (hcfg : s.cfg.Legal) (hcpe : s.parser.state = .cpe)
    (hub : s.parser.ub = 0#2) (hweight : s.parser.mixWeight = 0#8)
    (hslot0 : s.slot s.parser.ci < s.cfg.numCh.toNat) (hslot1 : s.slot (s.parser.ci + 1) < s.cfg.numCh.toNat)
    (hn : s.parser.n.toNat ≤ s.cfg.maxSamples.toNat) (hlen0 : s.ch0.smp.length = s.parser.n.toNat)
    (hlen1 : s.ch1.smp.length = s.parser.n.toNat) (hw : m.writeAll s.elementBytes = some m') {j k : Nat} (v : Word)
    (hk : k < s.bps) :
    (s.ch1.smp[j]? = some v →
      m'.read (s.port.outAddr +
        BitVec.ofNat 32 ((j * s.cfg.numCh.toNat + s.slot (s.parser.ci + 1)) * s.bps + k)) =
        some ((containerValue s.cfg.bits 0#2 v 0#32).extractLsb' (8 * k) 8)) ∧
    (s.ch0.smp[j]? = some v → s.slot s.parser.ci ≠ s.slot (s.parser.ci + 1) →
      m'.read (s.port.outAddr + BitVec.ofNat 32 ((j * s.cfg.numCh.toNat + s.slot s.parser.ci) * s.bps + k)) =
        some ((containerValue s.cfg.bits 0#2 v 0#32).extractLsb' (8 * k) 8)) := by
  have hnch : s.nch = 2 := s.nch_eq_two_iff.2 hcpe
  have hslots : ∀ d < s.nch, s.slot (s.parser.ci + d) < s.cfg.numCh.toNat := by
    intro d hd
    obtain rfl | rfl : d = 0 ∨ d = 1 := by omega
    · exact hslot0
    · exact hslot1
  have hvalues : s.channelValues j = [scratchAt s.ch0.smp j, scratchAt s.ch1.smp j] := by
    rw [State.channelValues_of_pair hcpe, hweight, unmix_of_zero]
  have hlows := State.lowValues_of_pair hcpe j
  rw [← State.sampleAddr_add, ← State.sampleAddr_add]
  refine ⟨fun hv => ?_, fun hv hne => ?_⟩
  · have hj : j < s.parser.n.toNat := hlen1 ▸ (List.getElem?_eq_some_iff.1 hv).1
    rw [← containerValue_of_ub_zero _ v (scratchAt s.ch1.low j), ← hub]
    refine State.read_elementBytes (ch := 1) hcfg hslots hk ?_ ?_ (fun d hd hlt => by omega) hn hj hw
    · rw [hvalues, scratchAt_of_getElem? hv]; rfl
    · rw [hlows]; rfl
  · have hj : j < s.parser.n.toNat := hlen0 ▸ (List.getElem?_eq_some_iff.1 hv).1
    rw [← containerValue_of_ub_zero _ v (scratchAt s.ch0.low j), ← hub]
    refine State.read_elementBytes (ch := 0) hcfg hslots hk ?_ ?_ (fun d hd hlt => ?_) hn hj hw
    · rw [hvalues, scratchAt_of_getElem? hv]; rfl
    · rw [hlows]; rfl
    · obtain rfl : d = 1 := by omega
      exact hne

end Sys2Proof.Machine

namespace Sys2Proof.Proofs
open Sys2Proof.Machine

/-- Settles O55: the element is its pairs read one after another, which run past the end at one read or are all there; then
they are stored, and the end of the element writes them. -/
theorem rawStereoElement : Obligations.RawStereoElement := by
  intro s h hesc hcfg _ n size bytes bug hn hch
  have hsize : size ≤ 32 := hcfg.bits_le
  have hbug : escBugOn s.params.escBug size = true ↔ bug := by
    simp only [escBugOn, bug]
    cases s.params.escBug <;> simp
  refine ⟨fun hr hpos hmax hend => ?_, fun hserved hcan => ?_⟩
  · obtain ⟨p, hpast, hpart, hle, hexec⟩ := exec_cpe_raised hesc hn hch rfl rfl hsize rfl hr hpos hmax hend
    exact ⟨p, hpast, hpart, hle, hexec, rfl⟩
  · have hexec := exec_cpe_of_canRead hesc hn hch rfl rfl hsize rfl hcan
    obtain ⟨m, hwritten, hfinish⟩ := finishElement_of_served (s := s.afterPairs h size _ n.toNat) hserved
    have hlen {f : Word × Word → Word} :
        ((s.rawPairs size (escBugOn s.params.escBug size) n.toNat).map f).length = n.toNat := by
      rw [List.length_map, State.length_rawPairs]
    refine ⟨_, hexec.trans (congrArg Res.outcome hfinish), s.map_fst_rawPairs,
      fun hb => s.map_snd_rawPairs_of_bug (hbug.2 hb), fun hb => s.map_snd_rawPairs_of_not_bug (mt hbug.1 hb), ?_, ?_,
      rfl, rfl, rfl, rfl, fun hslot0 hslot1 j k v hk => ?_⟩
    · rw [State.goto_pos, State.setParser_pos, State.setMem_pos, State.afterPairs_pos]
      have hlt := hcan.2.2
      omega
    · change Parser.mk _ _ _ _ _ h.esc _ _ _ = _
      rw [hesc]
      rfl
    · exact State.read_pair (s := s.afterPairs h size _ n.toNat) hcfg rfl rfl rfl hslot0 hslot1 hn hlen hlen hwritten v hk

end Sys2Proof.Proofs
end

section
/-! The encodings (family 30_encoding.md): the bits of a field as a number, what a plan of field reads takes from bits that
start with an encoding, and what it can end in on any bits; then the plan of each form. -/

namespace Sys2Proof

/-! ### Bits and the numbers they stand for (R62) -/

@[simp] theorem length_bitsOf (n v : Nat) : (bitsOf n v).length = n := by
  induction n with
  | zero => rfl
  | succ n ih => rw [bitsOf, List.length_cons, ih]

@[simp] theorem length_fieldBits {n : Nat} (v : BitVec n) : (fieldBits v).length = n := length_bitsOf n _

/-- The bits read so far are the high part of the number. -/
theorem foldl_bitsOf (n v acc : Nat) :
    (bitsOf n v).foldl (fun a b => 2 * a + b.toNat) acc = acc * 2 ^ n + v % 2 ^ n := by
  induction n generalizing acc with
  | zero => simp [bitsOf, Nat.mod_one]
  | succ n ih =>
    rw [bitsOf, List.foldl_cons, ih, Nat.mod_pow_succ, Nat.toNat_testBit, pow_succ]
    ring

theorem natOfBits_bitsOf (n v : Nat) : natOfBits (bitsOf n v) = v % 2 ^ n := by
  rw [natOfBits, foldl_bitsOf, Nat.zero_mul, Nat.zero_add]

theorem ofNat_natOfBits_fieldBits {n : Nat} (v : BitVec n) : BitVec.ofNat n (natOfBits (fieldBits v)) = v := by
  rw [fieldBits, natOfBits_bitsOf, Nat.mod_eq_of_lt v.isLt, BitVec.ofNat_toNat, BitVec.setWidth_eq]

theorem fieldBits_ofBool (b : Bool) : fieldBits (BitVec.ofBool b) = [b] := by
  cases b <;> rfl

/-! ### What a plan reads -/

/-- The plan, followed over bits that start with `xs`, takes `xs` and ends in a. -/
def Fields.Reads {α : Type} (f : Fields α) (xs : List Bool) (a : α) : Prop :=
  ∀ pre rest : List Bool, f.run (pre ++ (xs ++ rest)) pre.length = .ok (a, pre.length + xs.length)

namespace Fields.Reads

variable {α β : Type}

theorem done (a : α) : (Fields.done a).Reads [] a := fun _ _ => rfl

theorem field {n : Nat} {v : BitVec n} {k : BitVec n → Fields α} {xs : List Bool} {a : α} (h : (k v).Reads xs a) :
    (Fields.field n k).Reads (fieldBits v ++ xs) a := by
  intro pre rest
  have hlen : pre.length + n ≤ (pre ++ (fieldBits v ++ xs ++ rest)).length := by
    simp only [List.length_append, length_fieldBits]; omega
  have htake : ((pre ++ (fieldBits v ++ xs ++ rest)).drop pre.length).take n = fieldBits v := by
    rw [List.drop_left, List.append_assoc, List.take_left' (length_fieldBits v)]
  have hnext := h (pre ++ fieldBits v) rest
  rw [List.length_append, length_fieldBits] at hnext
  rw [Fields.run, if_pos hlen, htake, ofNat_natOfBits_fieldBits, List.length_append, length_fieldBits, ← Nat.add_assoc,
    ← hnext]
  simp only [List.append_assoc]

/-- The last field of a plan. -/
theorem last {n : Nat} {v : BitVec n} {k : BitVec n → Fields α} {a : α} (h : (k v).Reads [] a) :
    (Fields.field n k).Reads (fieldBits v) a := by
  have hfield := field h
  rwa [List.append_nil] at hfield

theorem bit {b : Bool} {k : Bool → Fields α} {xs : List Bool} {a : α} (h : (k b).Reads xs a) :
    (Fields.bit k).Reads (b :: xs) a := by
  intro pre rest
  have hnext := h (pre ++ [b]) rest
  simp only [List.append_assoc, List.singleton_append, List.length_append, List.length_singleton] at hnext
  rw [Fields.run, List.getElem?_append_right le_rfl, Nat.sub_self]
  rw [List.length_cons, Nat.add_comm xs.length, ← Nat.add_assoc, ← hnext]
  rfl

end Fields.Reads

/-- One plan after another is followed in two parts. -/
theorem Fields.run_bind {α β : Type} (f : Fields α) (g : α → Fields β) (bits : List Bool) (pos : Nat) :
    (f.bind g).run bits pos = (f.run bits pos).bind fun out => (g out.1).run bits out.2 := by
  induction f generalizing pos with
  | done a => rfl
  | field n k ih =>
    simp only [Fields.bind, Fields.run]
    split
    · exact ih _ _
    · rfl
  | bit k ih =>
    simp only [Fields.bind, Fields.run]
    split
    · exact ih _ _
    · rfl
  | back f ih =>
    simp only [Fields.bind, Fields.run]
    split
    · exact ih _
    · rfl

theorem Fields.run_map {α β : Type} (g : α → β) (f : Fields α) (bits : List Bool) (pos : Nat) :
    (f.map g).run bits pos = (f.run bits pos).map fun out => (g out.1, out.2) := by
  rw [Fields.map, Fields.run_bind]
  cases f.run bits pos <;> rfl

theorem Fields.Reads.map {α β : Type} {f : Fields α} {xs : List Bool} {a : α} (h : f.Reads xs a) (g : α → β) :
    (f.map g).Reads xs (g a) := by
  intro pre rest
  rw [Fields.run_map, h]
  rfl

theorem decode_of_reads {f : Form} {xs : List Bool} {i : Instr} (h : (formFields f).Reads xs i) (rest : List Bool) :
    decode f (xs ++ rest) = .ok (i, xs.length) := by
  have hrun := h [] rest
  rwa [List.length_nil, Nat.zero_add] at hrun

/-! ### The command word (R81, R82) -/

theorem commandWord_toNat (op : BitVec 4) (a b : BitVec 6) :
    (commandWord op a b).toNat = (b.toNat * 2 ^ 6 + a.toNat) * 2 ^ 4 + op.toNat := by
  simp only [commandWord, Machine.toNat_append_eq_add, BitVec.toNat_ofNat]
  omega

theorem commandWord_op (op : BitVec 4) (a b : BitVec 6) : (commandWord op a b).extractLsb' 0 4 = op := by
  refine BitVec.eq_of_toNat_eq ?_
  have := op.isLt
  rw [BitVec.extractLsb'_toNat, commandWord_toNat, Nat.shiftRight_zero]
  omega

theorem commandWord_a (op : BitVec 4) (a b : BitVec 6) : (commandWord op a b).extractLsb' 4 6 = a := by
  refine BitVec.eq_of_toNat_eq ?_
  have := op.isLt
  have := a.isLt
  rw [BitVec.extractLsb'_toNat, commandWord_toNat, Nat.shiftRight_eq_div_pow]
  omega

theorem commandWord_b (op : BitVec 4) (a b : BitVec 6) : (commandWord op a b).extractLsb' 10 6 = b := by
  refine BitVec.eq_of_toNat_eq ?_
  have := op.isLt
  have := a.isLt
  have := b.isLt
  rw [BitVec.extractLsb'_toNat, commandWord_toNat, Nat.shiftRight_eq_div_pow]
  omega

theorem reservedWord_commandWord (op : BitVec 4) (a b : BitVec 6) :
    reservedWord (commandWord op a b) = decide (8 ≤ op.toNat) := by
  have hhigh : (commandWord op a b).extractLsb' 16 16 = 0#16 := by
    refine BitVec.eq_of_toNat_eq ?_
    have := op.isLt
    have := a.isLt
    have := b.isLt
    rw [BitVec.extractLsb'_toNat, commandWord_toNat, Nat.shiftRight_eq_div_pow, BitVec.toNat_ofNat]
    omega
  rw [reservedWord, hhigh, commandWord_op]
  simp

/-- A word that is not reserved is its three fields. -/
theorem commandWord_extract {w : BitVec 32} (h : w.extractLsb' 16 16 = 0#16) :
    commandWord (w.extractLsb' 0 4) (w.extractLsb' 4 6) (w.extractLsb' 10 6) = w := by
  refine BitVec.eq_of_toNat_eq ?_
  have hhigh := congrArg BitVec.toNat h
  have := w.isLt
  rw [commandWord_toNat]
  simp only [BitVec.extractLsb'_toNat, Nat.shiftRight_eq_div_pow, BitVec.toNat_ofNat] at *
  omega

/-- A command word that is not reserved decodes by its opcode. -/
theorem decodeCommand_commandWord {op : BitVec 4} (h : op.toNat < 8) (a b : BitVec 6) :
    decodeCommand (commandWord op a b) =
      if op = 0#4 then .configure a b
      else if op = 1#4 then .decode a b
      else if op = 2#4 then .brSeek a b
      else if op = 3#4 then .brRead a b
      else if op = 4#4 then .brReadBit a b
      else if op = 5#4 then .brUnread a b
      else if op = 6#4 then .lzc a b
      else .riceValue a b := by
  have hfree : reservedWord (commandWord op a b) = false := by
    rw [reservedWord_commandWord, decide_eq_false (not_le.2 h)]
  simp only [decodeCommand, hfree, Bool.false_eq_true, if_false, commandWord_op, commandWord_a, commandWord_b]

theorem decodeCommand_of_reserved {w : BitVec 32} (h : reservedWord w = true) : decodeCommand w = .reservedOp w := by
  simp only [decodeCommand, h, if_true]

theorem commandFields_reads_of_decode {w : BitVec 32} {i : Instr} (h : decodeCommand w = i) :
    (formFields .command).Reads (fieldBits w) i :=
  .last (by rw [h]; exact .done i)

theorem commandFields_reads {i : Instr} (h : i.wf .command = true) :
    (formFields .command).Reads (encode .command i) i := by
  cases i with
  | configure a b => exact commandFields_reads_of_decode (decodeCommand_commandWord (by decide) a b)
  | decode a b => exact commandFields_reads_of_decode (decodeCommand_commandWord (by decide) a b)
  | brSeek a b => exact commandFields_reads_of_decode (decodeCommand_commandWord (by decide) a b)
  | brRead a b => exact commandFields_reads_of_decode (decodeCommand_commandWord (by decide) a b)
  | brReadBit a b => exact commandFields_reads_of_decode (decodeCommand_commandWord (by decide) a b)
  | brUnread a b => exact commandFields_reads_of_decode (decodeCommand_commandWord (by decide) a b)
  | lzc a b => exact commandFields_reads_of_decode (decodeCommand_commandWord (by decide) a b)
  | riceValue a b => exact commandFields_reads_of_decode (decodeCommand_commandWord (by decide) a b)
  | reservedOp w => exact commandFields_reads_of_decode (decodeCommand_of_reserved h)
  | _ => cases h

/-! ### Elements (R89, R90, R99, R100) -/

theorem Fields.Reads.flag {α : Type} {k : BitVec 1 → Fields α} {b : Bool} {xs : List Bool} {a : α}
    (h : (k (BitVec.ofBool b)).Reads xs a) : (Fields.field 1 k).Reads ([b] ++ xs) a := by
  rw [← fieldBits_ofBool]
  exact .field h

theorem ofBool_beq_one (b : Bool) : (BitVec.ofBool b == 1#1) = b := by
  cases b <;> rfl

theorem audioHeaderFields_reads (h : AudioHeader) : audioHeaderFields.Reads (encodeHeader h) h := by
  obtain ⟨inst, unused, ub, esc, count⟩ := h
  simp only [encodeHeader, List.append_assoc]
  refine .field (.field (.flag (.field (.flag ?_))))
  cases count with
  | none =>
    rw [Option.isSome_none, if_neg (by decide), ofBool_beq_one]
    exact .done _
  | some c =>
    rw [Option.isSome_some, if_pos (by decide), ofBool_beq_one]
    exact .last (.done _)

/-- An extension is there exactly when the count has its highest value, and is read then. -/
theorem extensionFields_reads {n : Nat} {cnt top : BitVec n} {ext : Option (BitVec 8)} (g : Option (BitVec 8) → Instr)
    (h : (ext.isSome == (cnt == top)) = true) :
    (if cnt = top then .field 8 fun e => .done (g (some e)) else .done (g none) : Fields Instr).Reads (encodeExt ext)
      (g ext) := by
  rw [beq_iff_eq] at h
  cases ext with
  | none =>
    rw [if_neg (by simpa using h.symm)]
    exact .done _
  | some e =>
    rw [if_pos (by simpa using h.symm)]
    exact .last (.done _)

theorem gapFields_reads {cnt : BitVec 4} {ext : Option (BitVec 8)} (h : (ext.isSome == (cnt == 15#4)) = true) :
    gapFields.Reads (fieldBits cnt ++ encodeExt ext) (.gap cnt ext) :=
  .field (extensionFields_reads (.gap cnt) h)

theorem fillFields_reads {inst : BitVec 4} {al : Bool} {cnt : BitVec 8} {ext : Option (BitVec 8)}
    (h : (ext.isSome == (cnt == 255#8)) = true) :
    fillFields.Reads (fieldBits inst ++ ([al] ++ (fieldBits cnt ++ encodeExt ext))) (.fill inst al cnt ext) := by
  refine .field (.flag (.field ?_))
  simp only [ofBool_beq_one]
  exact extensionFields_reads (.fill inst al cnt) h

theorem elementFields_reads {fd : FilDse} {i : Instr} (h : i.wf (.element fd) = true) :
    (elementFields fd).Reads (encode (.element fd) i) i := by
  cases i with
  | sce hd => exact .field ((audioHeaderFields_reads hd).map _)
  | cpe hd => exact .field ((audioHeaderFields_reads hd).map _)
  | lfe hd => exact .field ((audioHeaderFields_reads hd).map _)
  | cce => exact .last (.done _)
  | pce => exact .last (.done _)
  | endElement => exact .last (.done _)
  | gap cnt ext =>
    simp only [encode, List.append_assoc]
    refine .field ?_
    cases fd <;> exact gapFields_reads h
  | fill inst al cnt ext =>
    simp only [encode, List.append_assoc]
    refine .field ?_
    cases fd <;> exact fillFields_reads h
  | _ => cases h

/-! ### Predictor headers (R93, R94) -/

theorem coefFields_reads (cs : List (BitVec 16)) :
    (coefFields cs.length).Reads (cs.flatMap fun c => fieldBits c) cs := by
  induction cs with
  | nil => exact .done _
  | cons c cs ih => exact .field (ih.map _)

theorem predictorFields_reads_encodePredictor {mode quant : BitVec 4} {ricemod : BitVec 3} {ncoef : BitVec 5}
    {cs : List (BitVec 16)} {i : Instr} (h : cs.length = ncoef.toNat)
    (hrow : predictorOf mode quant ricemod ncoef cs = i) :
    predictorFields.Reads (encodePredictor mode quant ricemod ncoef cs) i := by
  simp only [encodePredictor, List.append_assoc]
  subst hrow
  refine .field (.field (.field (.field ?_)))
  rw [← h]
  exact (coefFields_reads cs).map _

theorem predictorFields_reads {i : Instr} (h : i.wf .predictor = true) :
    predictorFields.Reads (encode .predictor i) i := by
  cases i with
  | predCopy q r => exact predictorFields_reads_encodePredictor rfl rfl
  | predFirstDiff q r cs =>
    exact predictorFields_reads_encodePredictor (ncoef := 31#5) (beq_iff_eq.1 h) rfl
  | predAdaptive q r n cs =>
    simp only [Instr.wf, Bool.and_eq_true, decide_eq_true_eq, beq_iff_eq] at h
    obtain ⟨⟨hlow, hhigh⟩, hlen⟩ := h
    have hrow : predictorOf 0#4 q r n cs = .predAdaptive q r n cs := by
      rw [predictorOf, if_pos rfl, if_neg (by rintro rfl; simp at hlow), if_neg (by rintro rfl; simp at hhigh)]
    exact predictorFields_reads_encodePredictor hlen hrow
  | predPrepass m q r n cs =>
    simp only [Instr.wf, Bool.and_eq_true, bne_iff_ne, beq_iff_eq] at h
    obtain ⟨hmode, hlen⟩ := h
    have hrow : predictorOf m q r n cs = .predPrepass m q r n cs := by rw [predictorOf, if_neg hmode]
    exact predictorFields_reads_encodePredictor hlen hrow
  | _ => cases h

/-! ### Codewords (R97, R153 to R156) -/

theorem Fields.Reads.bind {α β : Type} {f : Fields α} {g : α → Fields β} {xs ys : List Bool} {a : α} {b : β}
    (hf : f.Reads xs a) (hg : (g a).Reads ys b) : (f.bind g).Reads (xs ++ ys) b := by
  intro pre rest
  have hnext := hg (pre ++ xs) rest
  rw [List.length_append] at hnext
  rw [Fields.run_bind, List.append_assoc, hf, List.length_append, ← Nat.add_assoc, ← hnext]
  simp only [List.append_assoc]
  rfl

/-- Ones that use up the fuel end the count without a zero. -/
theorem unaryFields_reads_ones (fuel x : Nat) : (unaryFields fuel x).Reads (List.replicate fuel true) (x + fuel) := by
  induction fuel generalizing x with
  | zero => exact .done _
  | succ fuel ih =>
    rw [unaryFields, List.replicate_succ, Nat.add_comm fuel, ← Nat.add_assoc]
    refine .bit ?_
    exact ih (x + 1)

/-- Fewer ones are ended by a zero. -/
theorem unaryFields_reads_zero {fuel n : Nat} (h : n < fuel) (x : Nat) :
    (unaryFields fuel x).Reads (List.replicate n true ++ [false]) (x + n) := by
  induction fuel generalizing n x with
  | zero => cases h
  | succ fuel ih =>
    cases n with
    | zero =>
      rw [unaryFields]
      refine .bit ?_
      exact .done _
    | succ n =>
      rw [unaryFields, List.replicate_succ, List.cons_append, Nat.add_comm n, ← Nat.add_assoc]
      refine .bit ?_
      exact ih (Nat.lt_of_succ_lt_succ h) (x + 1)

/-- What follows the leading ones of a codeword (R155, R156). -/
def suffixFields (w k x : Nat) : Fields Codeword :=
  if Config.riceThreshold < x then .field w fun v => .done (.escape (v.setWidth 32))
  else if k = 1 then .done (.unary (BitVec.ofNat 4 x) 0#32)
  else .field k fun e =>
    if 1 < e.toNat then .done (.unary (BitVec.ofNat 4 x) (e.setWidth 32))
    else .back (.done (.unary (BitVec.ofNat 4 x) 0#32))

theorem codewordFields_eq_bind (w k : Nat) :
    codewordFields w k = (unaryFields (Config.riceThreshold + 1) 0).bind (suffixFields w k) := rfl

theorem suffixFields_of_one (w : Nat) {x : Nat} (hx : x ≤ 8) :
    suffixFields w 1 x = .done (.unary (BitVec.ofNat 4 x) 0#32) := by
  rw [suffixFields, if_neg (show ¬ Config.riceThreshold < x from not_lt.2 hx), if_pos rfl]

theorem suffixFields_of_suffix (w : Nat) {k x : Nat} (hx : x ≤ 8) (hk : k ≠ 1) :
    suffixFields w k x = .field k fun e =>
      if 1 < e.toNat then .done (.unary (BitVec.ofNat 4 x) (e.setWidth 32))
      else .back (.done (.unary (BitVec.ofNat 4 x) 0#32)) := by
  rw [suffixFields, if_neg (show ¬ Config.riceThreshold < x from not_lt.2 hx), if_neg hk]

theorem bitsOf_eq_fieldBits {n v : Nat} (h : v < 2 ^ n) : bitsOf n v = fieldBits (BitVec.ofNat n v) := by
  rw [fieldBits, BitVec.toNat_ofNat, Nat.mod_eq_of_lt h]

theorem codewordFields_reads_escape {w k : Nat} {v : BitVec 32} (hw : w ≤ 32) (hv : v.toNat < 2 ^ w) :
    (codewordFields w k).Reads (encodeCodeword w k (.escape v)) (.escape v) := by
  rw [encodeCodeword, bitsOf_eq_fieldBits hv, codewordFields_eq_bind]
  refine (unaryFields_reads_ones 9 0).bind ?_
  rw [suffixFields, if_pos (by decide)]
  have hvalue : (BitVec.ofNat w v.toNat).setWidth 32 = v := by
    refine BitVec.eq_of_toNat_eq ?_
    rw [BitVec.toNat_setWidth_of_le hw, BitVec.toNat_ofNat, Nat.mod_eq_of_lt hv]
  refine .last ?_
  rw [hvalue]
  exact .done _

theorem codewordFields_reads_one (w : Nat) {x : BitVec 4} (hx : x.toNat ≤ 8) :
    (codewordFields w 1).Reads (encodeCodeword w 1 (.unary x 0#32)) (.unary x 0#32) := by
  rw [codewordFields_eq_bind]
  refine (unaryFields_reads_zero (Nat.lt_succ_of_le hx) 0).bind ?_
  rw [Nat.zero_add, suffixFields_of_one w hx, BitVec.ofNat_toNat, BitVec.setWidth_eq]
  exact .done _

theorem codewordFields_reads_suffix (w : Nat) {k : Nat} {x : BitVec 4} {s : BitVec 32} (hx : x.toNat ≤ 8) (hk : k ≠ 1)
    (hk31 : k ≤ 31) (hs : 2 ≤ s.toNat) (hlt : s.toNat < 2 ^ k) :
    (codewordFields w k).Reads (encodeCodeword w k (.unary x s)) (.unary x s) := by
  have hne : s ≠ 0#32 := by rintro rfl; simp at hs
  have hsuffix : (BitVec.ofNat k s.toNat).toNat = s.toNat := by rw [BitVec.toNat_ofNat, Nat.mod_eq_of_lt hlt]
  have hvalue : (BitVec.ofNat k s.toNat).setWidth 32 = s := by
    refine BitVec.eq_of_toNat_eq ?_
    rw [BitVec.toNat_setWidth_of_le (by omega), hsuffix]
  rw [encodeCodeword, if_neg hk, if_neg hne, bitsOf_eq_fieldBits hlt, codewordFields_eq_bind]
  refine (unaryFields_reads_zero (Nat.lt_succ_of_le hx) 0).bind ?_
  rw [Nat.zero_add, suffixFields_of_suffix w hx hk, BitVec.ofNat_toNat, BitVec.setWidth_eq]
  refine .last ?_
  rw [if_pos (by omega), hvalue]
  exact .done _

/-- Of k bits of which all but the last are zeros the number is at most 1. -/
theorem natOfBits_take_le_one (k : Nat) (rest : List Bool) :
    natOfBits ((List.replicate (k - 1) false ++ rest).take k) ≤ 1 := by
  have hzeros (j : Nat) : (List.replicate j false).foldl (fun acc b => 2 * acc + b.toNat) 0 = 0 := by
    induction j with
    | zero => rfl
    | succ j ih => rwa [List.replicate_succ, List.foldl_cons]
  cases k with
  | zero => simp [natOfBits]
  | succ j =>
    cases rest with
    | nil => simp [natOfBits, hzeros]
    | cons b rest =>
      have htake : (List.replicate j false ++ b :: rest).take (j + 1) = List.replicate j false ++ [b] := by
        rw [List.take_append, List.length_replicate, Nat.add_sub_cancel_left,
          List.take_of_length_le (by simp)]
        rfl
      rw [Nat.add_sub_cancel, htake, natOfBits, List.foldl_append, hzeros]
      cases b <;> decide

/-- A suffix of 0 or 1 is read with the bit after the codeword, which is given back (R155). -/
theorem codewordFields_run_pushBack (w : Nat) {k : Nat} {x : BitVec 4} {rest : List Bool} (hx : x.toNat ≤ 8) (hk : k ≠ 1)
    (hrest : rest ≠ []) :
    (codewordFields w k).run (encodeCodeword w k (.unary x 0#32) ++ rest) 0 = .ok (.unary x 0#32, x.toNat + k) := by
  have hprefix := unaryFields_reads_zero (Nat.lt_succ_of_le hx) 0 [] (List.replicate (k - 1) false ++ rest)
  have hrest' : 1 ≤ rest.length := List.length_pos_iff.2 hrest
  rw [encodeCodeword, if_neg hk, if_pos rfl, codewordFields_eq_bind, Fields.run_bind, List.append_assoc]
  simp only [List.nil_append, List.length_nil, Nat.zero_add, List.length_append, List.length_replicate,
    List.length_singleton] at hprefix
  rw [Config.riceThreshold, hprefix]
  change (suffixFields w k x.toNat).run _ (x.toNat + 1) = _
  have hlen : x.toNat + 1 = (List.replicate x.toNat true ++ [false]).length := by simp
  have hsmall : ¬ 1 < (BitVec.ofNat k (natOfBits ((List.replicate (k - 1) false ++ rest).take k))).toNat := by
    rw [BitVec.toNat_ofNat, not_lt]
    exact (Nat.mod_le _ _).trans (natOfBits_take_le_one k rest)
  rw [suffixFields_of_suffix w hx hk, Fields.run, if_pos (by simp; omega), hlen, List.drop_left, if_neg hsmall, ← hlen,
    Fields.run, if_pos (by omega), Fields.run, BitVec.ofNat_toNat, BitVec.setWidth_eq]
  congr 2
  omega

theorem codewordLength_pushBack (w : Nat) {k : Nat} (hk : k ≠ 1) (x : BitVec 4) :
    codewordLength w k (.unary x 0#32) = x.toNat + k := by
  simp only [codewordLength, encodeCodeword, if_neg hk, if_pos, List.length_append, List.length_replicate,
    List.length_singleton]
  split <;> omega

theorem codewordFields_run_encode {w k : Nat} {c : Codeword} {rest : List Bool} (hw : w ≤ 32) (hk : k ≤ 31)
    (hrest : rest ≠ []) (hwf : c.wf w k = true) :
    (codewordFields w k).run (encodeCodeword w k c ++ rest) 0 = .ok (c, codewordLength w k c) := by
  have hreads (h : (codewordFields w k).Reads (encodeCodeword w k c) c) :
      (codewordFields w k).run (encodeCodeword w k c ++ rest) 0 = .ok (c, (encodeCodeword w k c).length) := by
    simpa using h [] rest
  cases c with
  | escape v => exact hreads (codewordFields_reads_escape hw (of_decide_eq_true hwf))
  | unary x s =>
    simp only [Codeword.wf, Bool.and_eq_true, Bool.or_eq_true, beq_iff_eq, bne_iff_ne, decide_eq_true_eq] at hwf
    obtain ⟨hx, rfl | ⟨⟨hk1, hs⟩, hlt⟩⟩ := hwf
    · by_cases hk1 : k = 1
      · subst hk1
        exact hreads (codewordFields_reads_one w hx)
      · rw [codewordFields_run_pushBack w hx hk1 hrest, codewordLength_pushBack w hk1]
    · have hk0 : k ≠ 0 := by rintro rfl; omega
      rw [hreads (codewordFields_reads_suffix w hx hk1 hk hs hlt), codewordLength, if_neg hk0, Nat.sub_zero]

theorem encode_residualOf (w k : Nat) (c : Codeword) : encode (.codeword w k) (residualOf c) = encodeCodeword w k c := by
  cases c <;> rfl

theorem residualOf_injective {c d : Codeword} (h : residualOf c = residualOf d) : c = d := by
  cases c <;> cases d <;> cases h <;> rfl

theorem decodeAt_codeword_iff (w k : Nat) (bits : List Bool) (pos p : Nat) (c : Codeword) :
    decodeAt (.codeword w k) bits pos = .ok (residualOf c, p) ↔ (codewordFields w k).run bits pos = .ok (c, p) := by
  rw [decodeAt, formFields, Fields.run_map]
  cases (codewordFields w k).run bits pos with
  | error e => simp [Except.map]
  | ok out =>
    obtain ⟨d, q⟩ := out
    simp only [Except.map, Except.ok.injEq, Prod.mk.injEq]
    exact ⟨fun h => ⟨residualOf_injective h.1, h.2⟩, fun h => ⟨h.1 ▸ rfl, h.2⟩⟩

theorem decodeAt_zeroRun_iff (k : Nat) (bits : List Bool) (pos p : Nat) (c : Codeword) :
    decodeAt (.zeroRun k) bits pos = .ok (.zeroRun c, p) ↔ (codewordFields 16 k).run bits pos = .ok (c, p) := by
  rw [decodeAt, formFields, Fields.run_map]
  cases (codewordFields 16 k).run bits pos with
  | error e => simp [Except.map]
  | ok out => simp [Except.map, Prod.ext_iff]

/-! ### What a plan can end in -/

/-- On whatever bits the plan is followed, having moved m bits so far, it ends in a value and a number of bits moved that
satisfy P, and no push-back goes back past the start. -/
def Fields.Ends {α : Type} (P : α → Nat → Prop) : Fields α → Nat → Prop
  | .done a, m => P a m
  | .field n k, m => ∀ v, (k v).Ends P (m + n)
  | .bit k, m => ∀ b, (k b).Ends P (m + 1)
  | .back f, m => 1 ≤ m ∧ f.Ends P (m - 1)

namespace Fields.Ends

variable {α β : Type} {P Q : α → Nat → Prop}

theorem mono {f : Fields α} {m : Nat} (hf : f.Ends P m) (h : ∀ a m, P a m → Q a m) : f.Ends Q m := by
  induction f generalizing m with
  | done a => exact h a m hf
  | field n k ih => exact fun v => ih v (hf v)
  | bit k ih => exact fun b => ih b (hf b)
  | back f ih => exact ⟨hf.1, ih hf.2⟩

theorem bind {R : β → Nat → Prop} {f : Fields α} {g : α → Fields β} {m : Nat}
    (h : f.Ends (fun a m' => (g a).Ends R m') m) : (f.bind g).Ends R m := by
  induction f generalizing m with
  | done a => exact h
  | field n k ih => exact fun v => ih v (h v)
  | bit k ih => exact fun b => ih b (h b)
  | back f ih => exact ⟨h.1, ih h.2⟩

theorem map {R : β → Nat → Prop} {f : Fields α} {g : α → β} {m : Nat} (h : f.Ends (fun a m' => R (g a) m') m) :
    (f.map g).Ends R m :=
  bind (g := fun a => .done (g a)) h

/-- Followed over a list of bits. -/
theorem run {f : Fields α} {m : Nat} (h : f.Ends P m) (bits : List Bool) (start : Nat) :
    (∃ a m', f.run bits (start + m) = .ok (a, start + m') ∧ P a m') ∨ f.run bits (start + m) = .error .truncated := by
  induction f generalizing m with
  | done a => exact .inl ⟨a, m, rfl, h⟩
  | field n k ih =>
    rw [Fields.run, Nat.add_assoc]
    split
    · exact ih _ (h _)
    · exact .inr rfl
  | bit k ih =>
    rw [Fields.run]
    split
    · exact ih _ (h _)
    · exact .inr rfl
  | back f ih =>
    rw [Fields.run, if_pos (by have := h.1; omega), Nat.add_sub_assoc h.1]
    exact ih h.2

end Fields.Ends

/-! ### What the plan of each form ends in -/

theorem decodeCommand_wf (w : BitVec 32) : (decodeCommand w).wf .command = true := by
  unfold decodeCommand
  dsimp only
  split_ifs with hres
  · exact hres
  all_goals rfl

theorem audioHeaderFields_ends {P : AudioHeader → Nat → Prop} {m : Nat} (h : ∀ hd j, m + 20 ≤ j → j ≤ m + 52 → P hd j) :
    audioHeaderFields.Ends P m := by
  intro inst unused hassize ub esc
  split
  · exact fun c => h _ _ (by omega) (by omega)
  · exact h _ _ (by omega) (by omega)

theorem gapFields_ends {P : Instr → Nat → Prop} {fd : FilDse} {m : Nat}
    (h : ∀ i j, i.wf (.element fd) = true → m ≤ j → j ≤ m + 12 → P i j) : gapFields.Ends P m := by
  intro cnt
  dsimp only
  split
  case isTrue htop => exact fun e => h _ _ (by simp [Instr.wf, htop]) (by omega) (by omega)
  case isFalse hlow => exact h _ _ (by simpa [Instr.wf] using hlow) (by omega) (by omega)

theorem fillFields_ends {P : Instr → Nat → Prop} {fd : FilDse} {m : Nat}
    (h : ∀ i j, i.wf (.element fd) = true → m ≤ j → j ≤ m + 21 → P i j) : fillFields.Ends P m := by
  intro inst al cnt
  dsimp only
  split
  case isTrue htop => exact fun e => h _ _ (by simp [Instr.wf, htop]) (by omega) (by omega)
  case isFalse hlow => exact h _ _ (by simpa [Instr.wf] using hlow) (by omega) (by omega)

/-- An element is well-formed and takes 3 to 55 bits. -/
theorem elementFields_ends (fd : FilDse) :
    (elementFields fd).Ends (fun i j => i.wf (.element fd) = true ∧ 3 ≤ j ∧ j ≤ 55) 0 := by
  have hgap : gapFields.Ends (fun i j => i.wf (.element fd) = true ∧ 3 ≤ j ∧ j ≤ 55) 3 :=
    gapFields_ends fun i j hwf hlow hhigh => ⟨hwf, hlow, by omega⟩
  have hfill : fillFields.Ends (fun i j => i.wf (.element fd) = true ∧ 3 ≤ j ∧ j ≤ 55) 3 :=
    fillFields_ends fun i j hwf hlow hhigh => ⟨hwf, hlow, by omega⟩
  have haudio (g : AudioHeader → Instr) (hg : ∀ hd, (g hd).wf (.element fd) = true) :
      (audioHeaderFields.map g).Ends (fun i j => i.wf (.element fd) = true ∧ 3 ≤ j ∧ j ≤ 55) 3 :=
    .map (audioHeaderFields_ends fun hd j hlow hhigh => ⟨hg hd, by omega, by omega⟩)
  intro tag
  dsimp only
  split_ifs
  · exact haudio .sce fun _ => rfl
  · exact haudio .cpe fun _ => rfl
  · exact ⟨rfl, by decide, by decide⟩
  · exact haudio .lfe fun _ => rfl
  · exact hgap
  · exact hfill
  · exact ⟨rfl, by decide, by decide⟩
  · exact hfill
  · exact hgap
  · exact ⟨rfl, by decide, by decide⟩

theorem coefFields_ends {P : List (BitVec 16) → Nat → Prop} {n m : Nat}
    (h : ∀ cs : List (BitVec 16), cs.length = n → P cs (m + 16 * n)) : (coefFields n).Ends P m := by
  induction n generalizing m P with
  | zero => exact h [] rfl
  | succ n ih =>
    intro c
    refine .map (ih fun cs hcs => ?_)
    rw [show m + 16 + 16 * n = m + 16 * (n + 1) by omega]
    exact h (c :: cs) (by rw [List.length_cons, hcs])

theorem predictorOf_wf {mode quant : BitVec 4} {ricemod : BitVec 3} {ncoef : BitVec 5} {cs : List (BitVec 16)}
    (h : cs.length = ncoef.toNat) : (predictorOf mode quant ricemod ncoef cs).wf .predictor = true := by
  unfold predictorOf
  split_ifs with hmode hcopy hdiff
  · rfl
  · subst hdiff
    exact beq_iff_eq.2 h
  · simp only [Instr.wf, Bool.and_eq_true, decide_eq_true_eq, beq_iff_eq]
    have := ncoef.isLt
    refine ⟨⟨?_, ?_⟩, h⟩ <;> bv_omega
  · simp [Instr.wf, hmode, h]

/-- A predictor header is well-formed and takes 16 to 512 bits. -/
theorem predictorFields_ends :
    predictorFields.Ends (fun i j => i.wf .predictor = true ∧ 16 ≤ j ∧ j ≤ 512) 0 := by
  intro mode quant ricemod ncoef
  have hlt := ncoef.isLt
  refine .map (coefFields_ends fun cs hcs => ⟨predictorOf_wf hcs, by omega, by omega⟩)

theorem unaryFields_ends {P : Nat → Nat → Prop} {fuel x m : Nat}
    (hzero : ∀ n < fuel, P (x + n) (m + n + 1)) (hones : P (x + fuel) (m + fuel)) : (unaryFields fuel x).Ends P m := by
  induction fuel generalizing x m with
  | zero => exact hones
  | succ fuel ih =>
    rintro (- | -)
    · exact hzero 0 fuel.succ_pos
    · refine ih (fun n hn => ?_) ?_
      · have h := hzero (n + 1) (Nat.succ_lt_succ hn)
        rwa [Nat.add_comm n, ← Nat.add_assoc, ← Nat.add_assoc] at h
      · rwa [Nat.add_comm fuel, ← Nat.add_assoc, ← Nat.add_assoc] at hones

/-- A codeword under w and k: at most nine bits of ones with their zero, then w raw bits, or k bits of suffix, one of which may be given
back. -/
theorem codewordFields_ends (w k : Nat) :
    (codewordFields w k).Ends (fun c j => (w ≤ 32 → k ≤ 31 → c.wf w k = true) ∧ j ≤ 9 + w + k) 0 := by
  rw [codewordFields_eq_bind]
  refine .bind (unaryFields_ends (fun x hx => ?_) ?_)
  · have hx8 : x ≤ 8 := Nat.le_of_lt_succ hx
    have hcount : (BitVec.ofNat 4 x).toNat = x := by rw [BitVec.toNat_ofNat]; omega
    rw [Nat.zero_add]
    by_cases hk : k = 1
    · subst hk
      rw [suffixFields_of_one w hx8]
      exact ⟨fun _ _ => by simp [Codeword.wf, hcount, hx8], by omega⟩
    · rw [suffixFields_of_suffix w hx8 hk]
      intro e
      dsimp only
      split
      case isTrue hbig =>
        refine ⟨fun _ hk31 => ?_, by omega⟩
        have hlt := e.isLt
        simp only [Codeword.wf, hcount, BitVec.toNat_setWidth_of_le (show k ≤ 32 by omega), Bool.and_eq_true,
          Bool.or_eq_true, decide_eq_true_eq, bne_iff_ne]
        exact ⟨hx8, .inr ⟨⟨hk, hbig⟩, hlt⟩⟩
      case isFalse => exact ⟨by omega, fun _ _ => by simp [Codeword.wf, hcount, hx8], by omega⟩
  · rw [suffixFields, if_pos (by decide)]
    intro v
    refine ⟨fun hw _ => ?_, by rw [Config.riceThreshold]; omega⟩
    rw [Codeword.wf, BitVec.toNat_setWidth_of_le hw]
    exact decide_eq_true v.isLt

/-- What the decoder answers for a form: an instruction of the form, in few bits; well-formed where the width and the
parameter are those of the core. -/
def Form.Gives (f : Form) (i : Instr) (j : Nat) : Prop :=
  match f with
  | .command => i.wf .command = true ∧ j = 32
  | .element fd => i.wf (.element fd) = true ∧ 3 ≤ j ∧ j ≤ 55
  | .predictor => i.wf .predictor = true ∧ 16 ≤ j ∧ j ≤ 512
  | .codeword w k => (∃ c, i = residualOf c ∧ (w ≤ 32 → k ≤ 31 → c.wf w k = true)) ∧ j ≤ 9 + w + k
  | .zeroRun k => (∃ c, i = .zeroRun c ∧ (k ≤ 31 → c.wf 16 k = true)) ∧ j ≤ 25 + k

theorem formFields_ends (f : Form) : (formFields f).Ends f.Gives 0 := by
  cases f with
  | command => exact fun w => ⟨decodeCommand_wf _, rfl⟩
  | element fd => exact elementFields_ends fd
  | predictor => exact predictorFields_ends
  | codeword w k => exact .map ((codewordFields_ends w k).mono fun c j h => ⟨⟨c, rfl, h.1⟩, h.2⟩)
  | zeroRun k => exact .map ((codewordFields_ends 16 k).mono fun c j h => ⟨⟨c, rfl, h.1 (by decide)⟩, h.2⟩)

end Sys2Proof

namespace Sys2Proof.Proofs
open Sys2Proof.Machine

/-- Settles O2: the plan of each form reads the fields in the order in which they are encoded. -/
theorem decodeOfEncode : Obligations.DecodeOfEncode := by
  intro f i rest hf hwf
  refine decode_of_reads ?_ rest
  cases f with
  | command => exact commandFields_reads hwf
  | element fd => exact elementFields_reads hwf
  | predictor => exact predictorFields_reads hwf
  | codeword w k => cases hf
  | zeroRun k => cases hf

/-- Settles O4: a word is reserved, or it is its three fields with one of the eight opcodes. -/
theorem commandWordsReadOneWay : Obligations.CommandWordsReadOneWay := by
  intro w
  by_cases hres : reservedWord w = true
  · rw [decodeCommand_of_reserved hres]
    exact ⟨hres, rfl⟩
  · have hhigh : w.extractLsb' 16 16 = 0#16 ∧ (w.extractLsb' 0 4).toNat < 8 := by
      simpa [reservedWord] using hres
    obtain ⟨hhigh, hop⟩ := hhigh
    rw [← commandWord_extract hhigh]
    generalize w.extractLsb' 0 4 = op at *
    rw [decodeCommand_commandWord hop]
    obtain rfl | rfl | rfl | rfl | rfl | rfl | rfl | rfl : op = 0#4 ∨ op = 1#4 ∨ op = 2#4 ∨ op = 3#4 ∨ op = 4#4 ∨
        op = 5#4 ∨ op = 6#4 ∨ op = 7#4 := by bv_omega
    all_goals exact ⟨rfl, rfl⟩

/-- Settles O6: by running the decoder. -/
theorem writtenWordsDecode : Obligations.WrittenWordsDecode := by
  unfold Obligations.WrittenWordsDecode
  decide

/-- Settles O3: the leading ones are read up to their zero or the ninth of them, and what follows by the parameter; a suffix of 0 or 1 is
read with the bit after it. -/
theorem decodeOfEncodeCodeword : Obligations.DecodeOfEncodeCodeword := by
  refine ⟨fun w k c rest hw hk hrest => ⟨fun hwf => ?_, fun hwf => ?_⟩, fun k bits pos p c => ?_⟩
  · rw [decode, decodeAt_codeword_iff, encode_residualOf]
    exact codewordFields_run_encode hw hk hrest hwf
  · rw [decode, decodeAt_zeroRun_iff]
    exact codewordFields_run_encode (by decide) hk hrest hwf
  · rw [decodeAt_zeroRun_iff, decodeAt_codeword_iff]

/-- Settles O5: each plan ends in well-formed instructions only, and pushes back only bits it has read. -/
theorem decodedIsWellFormed : Obligations.DecodedIsWellFormed := by
  refine ⟨fun f bits pos p i hf hdecode => ?_, fun f bits pos hdecode => ?_⟩
  · rw [decodeAt, ← Nat.add_zero pos] at hdecode
    obtain ⟨a, j, hrun, hgives⟩ | hrun := (formFields_ends f).run bits pos
    · rw [hrun] at hdecode
      cases hdecode
      cases f with
      | command => exact hgives.1
      | element fd => exact hgives.1
      | predictor => exact hgives.1
      | codeword w k =>
        obtain ⟨⟨c, rfl, hwf⟩, -⟩ := hgives
        cases c <;> exact hwf hf.1 hf.2
      | zeroRun k =>
        obtain ⟨⟨c, rfl, hwf⟩, -⟩ := hgives
        exact hwf hf
    · rw [hrun] at hdecode
      cases hdecode
  · rw [decodeAt, ← Nat.add_zero pos] at hdecode
    obtain ⟨a, j, hrun, -⟩ | hrun := (formFields_ends f).run bits pos
    all_goals rw [hrun] at hdecode; cases hdecode

end Sys2Proof.Proofs
end

section
/-! The predictor (family 44_fir.md): sign extension, what the general loop keeps, and the loop over lists, newest sample first,
as the algorithm of the spec over arrays read and written by index. -/

namespace Sys2Proof.Machine

/-! ### Sign extension (R11) -/

theorem sext_toInt {n : Nat} (h1 : 1 ≤ n) (h32 : n ≤ 32) (v : Word) :
    (sext n v).toInt =
      if v.toNat % 2 ^ n < 2 ^ (n - 1) then (v.toNat % 2 ^ n : Int) else (v.toNat % 2 ^ n : Int) - 2 ^ n := by
  obtain ⟨m, rfl⟩ : ∃ m, n = m + 1 := ⟨n - 1, by omega⟩
  have hword : 2 ^ 32 = 2 ^ (m + 1) * 2 ^ (31 - m) := by rw [← pow_add]; congr 1; omega
  have hshift : (v <<< (31 - m)).toNat = v.toNat % 2 ^ (m + 1) * 2 ^ (31 - m) := by
    rw [BitVec.toNat_shiftLeft, Nat.shiftLeft_eq, hword, Nat.mul_mod_mul_right]
  have hhalf : 2 * (v.toNat % 2 ^ (m + 1) * 2 ^ (31 - m)) < 2 ^ 32 ↔ v.toNat % 2 ^ (m + 1) < 2 ^ m := by
    rw [hword, ← mul_assoc, Nat.mul_lt_mul_right (by positivity), pow_succ]
    omega
  have hpos : (0 : Int) < 2 ^ (31 - m) := by positivity
  rw [sext, show 32 - (m + 1) = 31 - m by omega, BitVec.toInt_sshiftRight, BitVec.toInt_eq_toNat_cond, hshift,
    Int.shiftRight_eq_div_pow, Nat.add_sub_cancel]
  simp only [hhalf]
  split
  · push_cast
    rw [Int.mul_ediv_cancel _ hpos.ne']
  · rw [hword]
    push_cast
    rw [← sub_mul, Int.mul_ediv_cancel _ hpos.ne']

theorem sext_range {n : Nat} (h1 : 1 ≤ n) (h32 : n ≤ 32) (v : Word) :
    -(2 ^ (n - 1)) ≤ (sext n v).toInt ∧ (sext n v).toInt < 2 ^ (n - 1) := by
  have hlt : v.toNat % 2 ^ n < 2 ^ n := Nat.mod_lt _ (by positivity)
  have hpow : (2 : Int) ^ n = 2 * 2 ^ (n - 1) := by rw [← pow_succ']; congr 1; omega
  have hlt' : (v.toNat % 2 ^ n : Int) < 2 ^ n := by exact_mod_cast hlt
  have hnonneg : (0 : Int) ≤ v.toNat % 2 ^ n := Int.emod_nonneg _ (by positivity)
  rw [sext_toInt h1 h32]
  split
  case isTrue hlow =>
    have hlow' : (v.toNat % 2 ^ n : Int) < 2 ^ (n - 1) := by exact_mod_cast hlow
    constructor <;> linarith
  case isFalse hhigh =>
    have hhigh' : (2 : Int) ^ (n - 1) ≤ v.toNat % 2 ^ n := by exact_mod_cast not_lt.1 hhigh
    constructor <;> linarith

/-! ### Every sample after the first is sign-extended (R187) -/

theorem firstDiff_sext {cb : Nat} {prev : Word} {src : List Word} : ∀ v ∈ firstDiff cb prev src, ∃ x, v = sext cb x := by
  induction src generalizing prev with
  | nil => simp [firstDiff]
  | cons x rest ih =>
    rw [firstDiff, List.forall_mem_cons]
    exact ⟨⟨_, rfl⟩, ih⟩

/-- The general loop puts one sign-extended sample for each residual before the samples so far. -/
theorem firLoop_samples {cb n q : Nat} {src hist coefs hist' coefs' : List Word}
    (h : firLoop cb n q src hist coefs = some (hist', coefs')) :
    ∃ news, hist' = news ++ hist ∧ news.length = src.length ∧ ∀ v ∈ news, ∃ x, v = sext cb x := by
  induction src generalizing hist coefs with
  | nil =>
    cases h
    exact ⟨[], rfl, rfl, by simp⟩
  | cons e rest ih =>
    rw [firLoop] at h
    split at h
    · cases h
    split at h
    · cases h
    obtain ⟨news, rfl, hlen, hsext⟩ := ih h
    refine ⟨news ++ [predict cb n q e hist coefs], by simp, by simp [hlen], ?_⟩
    rw [List.forall_mem_append]
    exact ⟨hsext, by simp [predict]⟩

/-! ### The coefficients stay in their range (R189) -/

theorem coefInRange_iff (c : Word) : coefInRange c = true ↔ -32768 ≤ c.toInt ∧ c.toInt ≤ 32767 := by
  simp [coefInRange]

/-- A list of coefficients in the range of R30. -/
def CoefsInRange (l : List Word) : Prop := ∀ c ∈ l, coefInRange c = true

theorem coefsLegal_iff (l : List Word) : CoefsLegal l ↔ l.length = 32 ∧ CoefsInRange l := by
  simp only [CoefsLegal, CoefsInRange, coefInRange_iff]

theorem adaptWalk_keeps {neg : Bool} {q wt : Nat} {top e : Word} {pairs : List (Word × Word)} {out : List Word}
    (h : adaptWalk neg q top pairs wt e = some out) :
    out.length = pairs.length ∧ (CoefsInRange (pairs.map (·.1)) → CoefsInRange out) := by
  induction pairs generalizing wt e out with
  | nil =>
    cases h
    exact ⟨rfl, id⟩
  | cons p rest ih =>
    rw [adaptWalk] at h
    by_cases hbudget : (if neg then e.slt 0#32 else (0#32).slt e) = true
    · rw [if_pos hbudget] at h
      dsimp only at h
      generalize p.1 - (if neg then -signOf (top - p.2) else signOf (top - p.2)) = c' at h
      by_cases hrange : coefInRange c' = true
      · rw [if_pos hrange] at h
        obtain ⟨out', hout, rfl⟩ := Option.map_eq_some_iff.1 h
        obtain ⟨hlen, hkeep⟩ := ih hout
        refine ⟨by simp [hlen], fun hin => ?_⟩
        rw [List.map_cons, CoefsInRange, List.forall_mem_cons] at hin
        exact List.forall_mem_cons.2 ⟨hrange, hkeep hin.2⟩
      · rw [if_neg hrange] at h
        cases h
    · rw [if_neg hbudget] at h
      cases h
      exact ⟨by simp, id⟩

theorem adapt_keeps {q : Nat} {top e : Word} {hist coefs out : List Word} (hlen : coefs.length ≤ hist.length)
    (h : adapt q top e hist coefs = some out) :
    out.length = coefs.length ∧ (CoefsInRange coefs → CoefsInRange out) := by
  have hwalk {neg : Bool} {e : Word}
      (h : (adaptWalk neg q top (coefs.zip hist).reverse 1 e).map List.reverse = some out) :
      out.length = coefs.length ∧ (CoefsInRange coefs → CoefsInRange out) := by
    obtain ⟨out', hout, rfl⟩ := Option.map_eq_some_iff.1 h
    obtain ⟨hlen', hkeep⟩ := adaptWalk_keeps hout
    refine ⟨by simpa [hlen] using hlen', fun hin => ?_⟩
    have hfirst : CoefsInRange ((coefs.zip hist).reverse.map (·.1)) := by
      rw [List.map_reverse, List.map_fst_zip hlen]
      simpa [CoefsInRange] using hin
    simpa [CoefsInRange] using hkeep hfirst
  unfold adapt at h
  split at h
  · exact hwalk h
  split at h
  · exact hwalk h
  · cases h
    exact ⟨rfl, id⟩

theorem firLoop_keeps {cb n q : Nat} {src hist coefs hist' coefs' : List Word}
    (hlen : src ≠ [] → coefs.length ≤ hist.length)
    (h : firLoop cb n q src hist coefs = some (hist', coefs')) :
    coefs'.length = coefs.length ∧ (CoefsInRange coefs → CoefsInRange coefs') := by
  induction src generalizing hist coefs with
  | nil =>
    cases h
    exact ⟨rfl, id⟩
  | cons e rest ih =>
    rw [firLoop] at h
    split at h
    · cases h
    split at h
    · cases h
    case h_2 coefs₁ hadapt =>
      have hlen₀ := hlen (List.cons_ne_nil e rest)
      obtain ⟨hlen₁, hkeep₁⟩ := adapt_keeps hlen₀ hadapt
      obtain ⟨hlen₂, hkeep₂⟩ := ih (fun _ => by rw [List.length_cons]; omega) h
      exact ⟨hlen₂.trans hlen₁, hkeep₂ ∘ hkeep₁⟩

/-- With n neither 0 nor 31 the predictor is the warm-up and the general loop on what is left (R181). -/
theorem fir_cons_of_loop {n : Nat} (h0 : n ≠ 0) (h31 : n ≠ 31) (cb q : Nat) (x : Word) (rest coef : List Word) :
    fir cb n q (x :: rest) coef =
      (firLoop cb n q (rest.drop n) (x :: firstDiff cb x (rest.take n)).reverse (coef.take n)).map
        fun out => (out.1.reverse, out.2 ++ coef.drop n) := by
  simp only [fir, h0, h31, if_false]
  cases firLoop cb n q (rest.drop n) (x :: firstDiff cb x (rest.take n)).reverse (coef.take n) <;> rfl

/-- What the predictor answers (R181, R187, R189): as many samples as residuals, all after the first sign-extended unless
n is 0, and a legal table from a legal one. -/
theorem fir_keeps {cb n q : Nat} {src coef dst coef' : List Word} (h : fir cb n q src coef = some (dst, coef')) :
    dst.length = src.length ∧ (CoefsLegal coef → CoefsLegal coef') ∧
      (n ≠ 0 → ∀ v ∈ dst.tail, ∃ x, v = sext cb x) := by
  cases src with
  | nil =>
    cases h
    exact ⟨rfl, id, by simp⟩
  | cons x rest =>
    by_cases h0 : n = 0
    · subst h0
      cases h
      exact ⟨rfl, id, absurd rfl⟩
    by_cases h31 : n = 31
    · subst h31
      cases h
      exact ⟨by simp, id, fun _ => firstDiff_sext⟩
    rw [fir_cons_of_loop h0 h31] at h
    obtain ⟨⟨hist, coefs⟩, hloop, hout⟩ := Option.map_eq_some_iff.1 h
    obtain ⟨rfl, rfl⟩ := Prod.mk.inj hout
    obtain ⟨news, rfl, hnews, hsext⟩ := firLoop_samples hloop
    have hwarm : rest.drop n ≠ [] →
        (coef.take n).length ≤ (x :: firstDiff cb x (rest.take n)).reverse.length := by
      intro hleft
      have hlt : n < rest.length := by rwa [ne_eq, List.drop_eq_nil_iff, not_le] at hleft
      simp only [List.length_take, List.length_reverse, List.length_cons, length_firstDiff]
      omega
    obtain ⟨hlen, hkeep⟩ := firLoop_keeps hwarm hloop
    refine ⟨?_, fun hlegal => ?_, fun _ => ?_⟩
    · simp only [List.length_reverse, List.length_append, List.length_cons, length_firstDiff, hnews, List.length_take,
        List.length_drop]
      omega
    · rw [coefsLegal_iff, CoefsInRange] at hlegal ⊢
      obtain ⟨hcount, hin⟩ := hlegal
      rw [List.length_append, hlen, ← List.length_append, List.take_append_drop, List.forall_mem_append]
      exact ⟨hcount, hkeep fun c hc => hin c (List.mem_of_mem_take hc), fun c hc => hin c (List.mem_of_mem_drop hc)⟩
    · rw [List.reverse_append, List.reverse_reverse, List.cons_append, List.tail_cons, List.forall_mem_append]
      exact ⟨firstDiff_sext, fun v hv => hsext v (List.mem_reverse.1 hv)⟩

/-- The prediction of a channel writes its residuals, samples and coefficients, and keeps its table legal (R191, R247). -/
theorem reconstructChan_keeps {cb : Nat} {r r' : ChanRegs} (h : reconstructChan cb r = some r') :
    r' = { r with res := r'.res, smp := r'.smp, coef := r'.coef } ∧ (CoefsLegal r.coef → CoefsLegal r'.coef) := by
  unfold reconstructChan at h
  split at h
  · cases h
  split at h
  · cases h
  case h_2 smp coef hfir =>
    cases h
    obtain ⟨-, hlegal, -⟩ := fir_keeps hfir
    exact ⟨rfl, hlegal⟩

/-! ### The algorithm over indexed arrays (R181, R188) -/

/-- Writing entry i after the entries before it. -/
theorem take_succ_set {l : List Word} {i : Nat} (h : i < l.length) (v : Word) :
    (l.set i v).take (i + 1) = l.take i ++ [v] := by
  rw [List.take_succ_eq_append_getElem (by rwa [List.length_set]), List.take_set_of_le (le_refl i),
    List.getElem_set_self]

/-- n = 0: the copy loop makes the destination the source. -/
theorem copyLoop_take {src dst : List Word} (hlen : dst.length = src.length) {m : Nat} (hm : m ≤ src.length) :
    ((List.range m).foldl (fun d i => d.set i (src.getD i 0#32)) dst).length = src.length ∧
      ((List.range m).foldl (fun d i => d.set i (src.getD i 0#32)) dst).take m = src.take m := by
  induction m with
  | zero => exact ⟨hlen, rfl⟩
  | succ m ih =>
    obtain ⟨hlen', htake⟩ := ih (by omega)
    rw [List.range_succ, List.foldl_append, List.foldl_cons, List.foldl_nil, List.length_set]
    refine ⟨hlen', ?_⟩
    rw [take_succ_set (by omega), htake, List.take_succ_eq_append_getElem (by omega : m < src.length),
      List.getD_eq_getElem _ _ (by omega)]

/-- The first-difference loop: the entries before i stay, and the next m are the first differences summed up. -/
theorem warmIndexed_take {cb i m : Nat} {src dst : List Word} {prev : Word} (hlen : dst.length = src.length) (hi : 1 ≤ i)
    (hm : i + m ≤ src.length) (hprev : dst[i - 1]? = some prev) :
    (warmIndexed cb src m i dst).length = src.length ∧
      (warmIndexed cb src m i dst).take (i + m) = dst.take i ++ firstDiff cb prev ((src.drop i).take m) := by
  induction m generalizing i dst prev with
  | zero => exact ⟨hlen, by simp [warmIndexed, firstDiff]⟩
  | succ m ih =>
    have hsrc : (src.drop i).take (m + 1) = src.getD i 0#32 :: (src.drop (i + 1)).take m := by
      rw [List.drop_eq_getElem_cons (by omega), List.take_succ_cons, List.getD_eq_getElem _ _ (by omega)]
    have hlast : dst.getD (i - 1) 0#32 = prev := by
      rw [List.getD_eq_getElem?_getD, hprev, Option.getD_some]
    rw [warmIndexed, hlast, hsrc, firstDiff]
    generalize sext cb (prev + src.getD i 0#32) = v
    obtain ⟨hlen', htake⟩ := ih (i := i + 1) (dst := dst.set i v) (prev := v) (by rw [List.length_set, hlen]) (by omega)
      (by omega) (by rw [Nat.add_sub_cancel, List.getElem?_set_self (by omega)])
    refine ⟨hlen', ?_⟩
    rw [Nat.add_comm m, ← Nat.add_assoc, htake, take_succ_set (by omega), List.append_assoc, List.singleton_append]

/-! ### The sum and the walk -/

/-- The entries before index i of the array are the samples so far, newest first. -/
def Holds (dst : List Word) (i : Nat) (hist : List Word) : Prop := (dst.take i).reverse = hist ∧ hist.length = i

theorem Holds.getD {dst hist : List Word} {i j : Nat} (h : Holds dst i hist) (hj : j < i) (d : Word) :
    dst.getD (i - 1 - j) 0#32 = hist.getD j d := by
  obtain ⟨rfl, hlen⟩ := h
  rw [List.length_reverse] at hlen
  have hi : i ≤ dst.length := by rw [List.length_take] at hlen; omega
  rw [List.getD_eq_getElem _ _ (by omega), List.getD_eq_getElem _ _ (by rw [List.length_reverse]; omega),
    List.getElem_reverse, List.getElem_take]
  simp only [hlen]

theorem Holds.set {dst hist : List Word} {i : Nat} (h : Holds dst i hist) (hi : i < dst.length) (v : Word) :
    Holds (dst.set i v) (i + 1) (v :: hist) := by
  obtain ⟨rfl, hlen⟩ := h
  refine ⟨?_, by rw [List.length_cons, hlen]⟩
  rw [take_succ_set hi, List.reverse_append]
  rfl

theorem foldl_range_add (g : Nat → Word) (n : Nat) (acc : Word) :
    (List.range n).foldl (fun a j => a + g j) acc = acc + (List.range n).foldl (fun a j => a + g j) 0#32 := by
  induction n with
  | zero => simp
  | succ n ih => simp only [List.range_succ, List.foldl_append, List.foldl_cons, List.foldl_nil, ih, BitVec.add_assoc]

/-- The weighted sum by indexes. -/
theorem weightedSum_eq_foldl (top : Word) (coefs hist : List Word) (hlen : coefs.length ≤ hist.length) :
    (List.range coefs.length).foldl (fun acc j => acc + (hist.getD j 0#32 - top) * coefs.getD j 0#32) 0#32 =
      weightedSum top hist coefs := by
  induction coefs generalizing hist with
  | nil => cases hist <;> rfl
  | cons c cs ih =>
    cases hist with
    | nil => simp at hlen
    | cons d ds =>
      rw [List.length_cons, List.range_succ_eq_map, List.foldl_cons, List.foldl_map, foldl_range_add, weightedSum,
        ← ih ds (Nat.le_of_succ_le_succ hlen)]
      simp

/-- The pair at index j is the first of the reversed pairs of the indexes up to j. -/
theorem reverse_zip_take_succ {coef hist : List Word} {j : Nat} (hcoef : j < coef.length) (hhist : j < hist.length) :
    ((coef.take (j + 1)).zip hist).reverse =
      (coef.getD j 0#32, hist.getD j 0#32) :: ((coef.take j).zip hist).reverse := by
  have hcut (l : List Word) (hl : l.length = j) : l.zip hist = l.zip (hist.take j) := by
    rw [← List.append_nil l]
    nth_rw 1 [← List.take_append_drop j hist]
    rw [List.zip_append (by rw [hl, List.length_take]; omega), List.zip_nil_left, List.append_nil, List.append_nil]
  have hlen : (coef.take j).length = j := by rw [List.length_take]; omega
  have hsplit : (coef.take (j + 1)).zip hist =
      (coef.take j).zip (hist.take j) ++ [(coef.getD j 0#32, hist.getD j 0#32)] := by
    nth_rw 1 [← List.take_append_drop j hist]
    rw [List.take_succ_eq_append_getElem hcoef, List.zip_append (by rw [hlen, List.length_take]; omega),
      List.drop_eq_getElem_cons hhist, List.getD_eq_getElem _ _ hcoef, List.getD_eq_getElem _ _ hhist]
    rfl
  rw [hsplit, List.reverse_append, hcut _ hlen]
  rfl

/-- The walk by indexes is the walk over the pairs from the highest index down. -/
theorem adaptIndexed_eq {neg : Bool} {q i n j : Nat} {top e : Word} {dst hist coef : List Word}
    (hhist : ∀ k < n, dst.getD (i - 1 - k) 0#32 = hist.getD k 0#32) (hlen : n ≤ hist.length) (hcoef : n ≤ coef.length)
    (hj : j ≤ n) :
    adaptIndexed neg dst i n q top j coef e =
      (adaptWalk neg q top ((coef.take j).zip hist).reverse (n - j + 1) e).map fun l => l.reverse ++ coef.drop j := by
  induction j generalizing coef e with
  | zero => simp [adaptIndexed, adaptWalk]
  | succ j ih =>
    have hwt : n - (j + 1) + 1 = n - j := by omega
    rw [reverse_zip_take_succ (by omega) (by omega), adaptIndexed, adaptWalk, hhist j (by omega), hwt]
    by_cases hbudget : (if neg then e.slt 0#32 else (0#32).slt e) = true
    · rw [if_pos hbudget, if_pos hbudget]
      dsimp only
      generalize coef.getD j 0#32 - (if neg then -signOf (top - hist.getD j 0#32) else signOf (top - hist.getD j 0#32)) =
        c'
      by_cases hrange : coefInRange c' = true
      · rw [if_pos hrange, if_pos hrange, ih (by rwa [List.length_set]) (by omega), List.take_set_of_le le_rfl,
          Option.map_map]
        congr 1
        funext l
        rw [Function.comp_apply, List.reverse_cons, List.append_assoc, List.singleton_append,
          List.drop_eq_getElem_cons (by rw [List.length_set]; omega), List.getElem_set_self,
          List.drop_set_of_lt (Nat.lt_succ_self j)]
      · rw [if_neg hrange, if_neg hrange, Option.map_none]
    · have hwhole : coef.take (j + 1) = coef.take j ++ [coef.getD j 0#32] := by
        rw [List.take_succ_eq_append_getElem (by omega), List.getD_eq_getElem _ _ (by omega)]
      have hfirst : ((coef.take j).zip hist).map (·.1) = coef.take j :=
        List.map_fst_zip (by rw [List.length_take]; omega)
      rw [if_neg hbudget, if_neg hbudget, Option.map_some, List.map_cons, List.map_reverse, hfirst, List.reverse_cons,
        List.reverse_reverse, ← hwhole, List.take_append_drop]

/-- The adaptation of the first n entries of the table. -/
theorem adapt_take {q i n : Nat} {top e : Word} {dst hist coef : List Word}
    (hhist : ∀ k < n, dst.getD (i - 1 - k) 0#32 = hist.getD k 0#32) (hlen : n ≤ hist.length) (hcoef : n ≤ coef.length) :
    (if (0#32).slt e then adaptIndexed false dst i n q top n coef e
      else if e.slt 0#32 then adaptIndexed true dst i n q top n coef e
      else some coef) = (adapt q top e hist (coef.take n)).map (· ++ coef.drop n) := by
  have hwalk (neg : Bool) : adaptIndexed neg dst i n q top n coef e =
      ((adaptWalk neg q top ((coef.take n).zip hist).reverse 1 e).map List.reverse).map (· ++ coef.drop n) := by
    rw [adaptIndexed_eq hhist hlen hcoef le_rfl, Nat.sub_self, Nat.zero_add, Option.map_map]
    rfl
  rw [adapt]
  split_ifs
  · exact hwalk false
  · exact hwalk true
  · rw [Option.map_some, List.take_append_drop]

/-! ### The general loop -/

/-- The general loop from index i on: the samples so far newest first, the first n entries of the table in use. -/
theorem generalIndexed_eq {cb n q m i : Nat} {src dst hist coef : List Word} (hdst : dst.length = src.length)
    (hcoef : n ≤ coef.length) (hhist : Holds dst i hist) (hi : n + 1 ≤ i) (hm : i + m = src.length) :
    generalIndexed cb n q src m i dst coef =
      (firLoop cb n q (src.drop i) hist (coef.take n)).map fun out => (out.1.reverse, out.2 ++ coef.drop n) := by
  induction m generalizing i dst hist coef with
  | zero =>
    obtain ⟨rfl, -⟩ := hhist
    rw [generalIndexed, List.drop_of_length_le (show src.length ≤ i by omega), firLoop, Option.map_some, List.reverse_reverse,
      List.take_of_length_le (by omega), List.take_append_drop]
  | succ m ih =>
    have hsrc : src.drop i = src.getD i 0#32 :: src.drop (i + 1) := by
      rw [List.drop_eq_getElem_cons (by omega), List.getD_eq_getElem _ _ (by omega)]
    have hlen := hhist.2
    have htop : dst.getD (i - n - 1) 0#32 = hist.getD n (Config.freeScratch n) := by
      rw [Nat.sub_right_comm]
      exact hhist.getD (by omega) _
    have hsum (top : Word) : (List.range n).foldl
        (fun acc j => acc + (dst.getD (i - 1 - j) 0#32 - top) * coef.getD j 0#32) 0#32 =
          weightedSum top hist (coef.take n) := by
      have hcount : (coef.take n).length = n := by rw [List.length_take]; omega
      rw [← weightedSum_eq_foldl top _ _ (by omega), hcount]
      refine List.foldl_ext _ _ _ fun acc j hj => ?_
      have hj := List.mem_range.1 hj
      rw [hhist.getD (by omega) 0#32, List.getD_eq_getElem _ _ (by omega), List.getD_eq_getElem _ _ (by omega),
        List.getD_eq_getElem _ _ (by omega), List.getElem_take]
    rw [generalIndexed, hsrc, firLoop]
    split
    · rfl
    dsimp only
    rw [htop, hsum]
    change (match (if _ then _ else _ : Option (List Word)) with | none => none | some coef' => _) = _
    generalize htop' : hist.getD n (Config.freeScratch n) = top
    generalize src.getD i 0#32 = e
    have hpredict : sext cb ((weightedSum top hist (coef.take n) + 1#32 <<< (q - 1)).sshiftRight q + top + e) =
        predict cb n q e hist (coef.take n) := by rw [predict, htop']
    rw [hpredict]
    generalize predict cb n q e hist (coef.take n) = v
    have hhist' : ∀ k < n, (dst.set i v).getD (i - 1 - k) 0#32 = hist.getD k 0#32 := by
      intro k hk
      rw [List.getD_eq_getElem?_getD, List.getElem?_set_ne (by omega), ← List.getD_eq_getElem?_getD]
      exact hhist.getD (by omega) _
    rw [adapt_take hhist' (by omega) hcoef]
    cases hadapt : adapt q top e hist (coef.take n) with
    | none => rfl
    | some coefs' =>
      obtain ⟨hcount, -⟩ := adapt_keeps (by rw [List.length_take]; omega) hadapt
      rw [List.length_take, Nat.min_eq_left hcoef] at hcount
      simp only [Option.map_some]
      rw [ih (by rw [List.length_set, hdst]) (by rw [List.length_append]; omega) (hhist.set (by omega) v) (by omega)
        (by omega), List.take_left' hcount, List.drop_left' hcount]

/-- The whole array is its first entry, the warm-up, and the general loop. -/
theorem fir_eq_firIndexed {cb n q : Nat} {src dst coef : List Word} (hdst : dst.length = src.length)
    (hcoef : coef.length = 32) (hn : n ≤ 31) : fir cb n q src coef = firIndexed cb n q src dst coef := by
  cases src with
  | nil =>
    obtain rfl := List.length_eq_zero_iff.1 hdst
    rfl
  | cons x rest =>
    have hpos : 0 < dst.length := by rw [hdst]; exact Nat.succ_pos _
    have hdst' : (dst.set 0 x).length = (x :: rest).length := by rw [List.length_set, hdst]
    have hwarm (m : Nat) (hm : m ≤ rest.length) :
        (warmIndexed cb (x :: rest) m 1 (dst.set 0 x)).length = (x :: rest).length ∧
        (warmIndexed cb (x :: rest) m 1 (dst.set 0 x)).take (m + 1) = x :: firstDiff cb x (rest.take m) := by
      have h := warmIndexed_take (cb := cb) (i := 1) (m := m) (prev := x) hdst' le_rfl
        (by rw [List.length_cons]; omega) (by rw [List.getElem?_set_self hpos])
      rw [take_succ_set hpos, Nat.add_comm 1] at h
      exact h
    rw [firIndexed, if_neg (by simp), List.getD_cons_zero]
    dsimp only
    split
    case isTrue h0 =>
      subst h0
      obtain ⟨hlen, htake⟩ := copyLoop_take hdst' (m := (x :: rest).length) le_rfl
      rw [fir_zero]
      rw [List.take_of_length_le hlen.le, List.take_length] at htake
      rw [htake]
    case isFalse h0 =>
    split
    case isTrue h31 =>
      subst h31
      obtain ⟨hlen, htake⟩ := hwarm rest.length le_rfl
      rw [List.take_of_length_le (by rw [hlen]; rfl), List.take_length] at htake
      rw [fir_thirtyOne, List.length_cons, Nat.add_sub_cancel, htake]
      rfl
    case isFalse h31 =>
    obtain ⟨hlen, htake⟩ := hwarm (min n rest.length) (Nat.min_le_right _ _)
    rw [List.length_cons, Nat.add_sub_cancel]
    by_cases hshort : rest.length ≤ n
    · rw [fir_of_short (by omega) (by omega) (by rw [List.length_cons]; omega), Nat.sub_eq_zero_of_le (by omega),
        generalIndexed]
      rw [Nat.min_eq_right hshort] at hlen htake ⊢
      rw [List.take_of_length_le (by rw [hlen]; rfl), List.take_length] at htake
      rw [htake]
      rfl
    · rw [Nat.min_eq_left (by omega)] at hlen htake ⊢
      have hholds : Holds (warmIndexed cb (x :: rest) n 1 (dst.set 0 x)) (n + 1)
          (x :: firstDiff cb x (rest.take n)).reverse := by
        refine ⟨by rw [htake], ?_⟩
        rw [List.length_reverse, List.length_cons, length_firstDiff, List.length_take]
        omega
      rw [generalIndexed_eq hlen (by omega) hholds le_rfl (by rw [List.length_cons]; omega), fir_cons_of_loop h0 h31]
      rfl

/-- The reconstruction of a channel is its one or two passes (R191). -/
theorem reconstructChan_eq_predicted (cb : Nat) (r : ChanRegs) : reconstructChan cb r = r.predicted cb := by
  have hsecond (res : List Word) :
      (match fir cb r.ncoef.toNat r.quant.toNat res r.coef with
        | none => none
        | some (smp, coef) => some { r with res := res, smp := smp, coef := coef }) =
      (fir cb r.ncoef.toNat r.quant.toNat res r.coef).map
        fun p => { r with res := res, smp := p.1, coef := p.2 } := by
    cases fir cb r.ncoef.toNat r.quant.toNat res r.coef <;> rfl
  rw [ChanRegs.predicted, reconstructChan]
  dsimp only
  by_cases hmode : r.mode = 0#4
  · rw [if_pos hmode, if_pos hmode]
    exact hsecond r.res
  · rw [if_neg hmode, if_neg hmode]
    cases fir cb 31 0 r.res r.coef with
    | none => rfl
    | some p => exact hsecond p.1

end Sys2Proof.Machine

namespace Sys2Proof.Proofs
open Sys2Proof.Machine

/-- Settles O44: every sample but the first is put there by a sign extension, and every changed coefficient is checked. -/
theorem firRanges : Obligations.FirRanges := by
  refine ⟨fun cb n q src coef dst coef' h => ?_, fun n v h1 h32 => sext_toInt h1 h32 v⟩
  obtain ⟨hlen, hlegal, hsext⟩ := fir_keeps h
  refine ⟨hlen, hlegal, fun hn hcb1 hcb32 i v hi hv => ?_⟩
  have hmem : v ∈ dst.tail := by
    obtain ⟨j, rfl⟩ : ∃ j, i = j + 1 := ⟨i - 1, by omega⟩
    rw [← List.getElem?_tail] at hv
    exact List.mem_of_getElem? hv
  obtain ⟨x, rfl⟩ := hsext (by omega) v hmem
  exact sext_range hcb1 hcb32 x

/-- Settles O45: the list of samples, newest first, is the array up to the index; the walk over the reversed pairs is the walk
from the highest index down. -/
theorem firIsTheIndexedAlgorithm : Obligations.FirIsTheIndexedAlgorithm :=
  ⟨fun _ _ _ _ _ _ hdst hcoef hn => fir_eq_firIndexed hdst hcoef hn, reconstructChan_eq_predicted⟩

end Sys2Proof.Proofs
end

section
/-! What an instruction can do, said once for each kind of instruction: it fails without a write outside the decoder, or it comes
to one of a few states, each written out. Then the unit-test commands (families 41 to 43), which are settled by that alone. -/

namespace Sys2Proof.Machine

/-! ### What stands outside the decoder -/

/-- What the decoder's registers (cursor, Rice, parser, channels, stage) are not: the configuration, the host port, the host
memory, the parameters, and what belongs to the host. -/
structure Outside where
  cfg : StreamCfg
  port : Port
  mem : Memory
  params : Params
  host : List HostOp
  busData : Word
  draws : Nat

def State.outside (s : State) : Outside := ⟨s.cfg, s.port, s.mem, s.params, s.host, s.busData, s.draws⟩

theorem State.outside_eq_iff {s t : State} :
    t.outside = s.outside ↔ t.cfg = s.cfg ∧ t.port = s.port ∧ t.mem = s.mem ∧ t.params = s.params ∧ t.host = s.host ∧
      t.busData = s.busData ∧ t.draws = s.draws := by
  simp only [State.outside, Outside.mk.injEq]

section Outside

variable (s : State)

@[simp] theorem State.outside_setCursor (c : Cursor) : (s.setCursor c).outside = s.outside := rfl

@[simp] theorem State.outside_cursorAt (p : Nat) : (s.cursorAt p).outside = s.outside := rfl

@[simp] theorem State.outside_setRice (r : Rice) : (s.setRice r).outside = s.outside := rfl

@[simp] theorem State.outside_setParser (p : Parser) : (s.setParser p).outside = s.outside := rfl

@[simp] theorem State.outside_goto (g : Stage) (c : Ch) : (s.goto g c).outside = s.outside := rfl

@[simp] theorem State.outside_setCh (c : Ch) (r : ChanRegs) : (s.setCh c r).outside = s.outside := by
  cases c <;> rfl

@[simp] theorem State.outside_pushRes (l : List Word) : (s.pushRes l).outside = s.outside := s.outside_setCh _ _

@[simp] theorem State.outside_initRun (c : Ch) : (s.initRun c).outside = s.outside := by
  simp only [State.initRun, State.outside_goto, State.outside_setCh, State.outside_setRice]

@[simp] theorem State.outside_withHeader (st : ParserState) (h : AudioHeader) : (s.withHeader st h).outside = s.outside :=
  rfl

@[simp] theorem State.outside_unmixed : s.unmixed.outside = s.outside := rfl

@[simp] theorem State.outside_storeSamples (l : List (Word × Word)) : (s.storeSamples l).outside = s.outside := by
  unfold State.storeSamples
  split <;> rfl

end Outside

/-! ### Reads move the cursor forward (R130, R260) -/

theorem State.cursorAt_pos_mod (s : State) (p : Nat) : (s.cursorAt p).pos = p % 2 ^ 35 := by
  simp only [State.cursorAt, State.pos, State.setCursor_cursor, BitVec.toNat_ofNat]
  omega

theorem State.Inside.pos_lt {s : State} (h : s.Inside) : s.pos < 2 ^ 34 := by
  have hidx := h.2
  have hoff := s.cursor.bitOff.isLt
  unfold State.pos
  omega

/-- A cursor inside the input stays inside it and does not go back. -/
def State.Ahead (s : State) (c : Cursor) : Prop :=
  s.Inside → (s.setCursor c).Inside ∧ s.pos ≤ (s.setCursor c).pos

theorem State.Ahead.refl (s : State) : s.Ahead s.cursor := fun h => ⟨h, le_rfl⟩

theorem State.Ahead.congr {s u : State} {c : Cursor} (hcursor : u.cursor = s.cursor) (hport : u.port = s.port)
    (h : u.Ahead c) : s.Ahead c := by
  unfold State.Ahead State.Inside State.pos State.endPos at h ⊢
  simpa only [State.setCursor_cursor, State.setCursor_port, hcursor, hport] using h

theorem State.Ahead.trans {s : State} {c d : Cursor} (h : s.Ahead c) (h' : (s.setCursor c).Ahead d) : s.Ahead d :=
  fun hin => ⟨(h' (h hin).1).1, (h hin).2.trans (h' (h hin).1).2⟩

/-- The operation moves the cursor ahead and does nothing else; an error of it is `MalformedStream`, and it has no step only
for want of a byte. -/
def Res.MovesAhead {α : Type} (s : State) : Res α → Prop
  | .ok _ t => ∃ c, t = s.setCursor c ∧ s.Ahead c
  | .raised e t => e = .malformedStream ∧ ∃ c, t = s.setCursor c
  | .stuck f => f = .busError

namespace Res.MovesAhead

variable {α β : Type} {s : State}

theorem pure (a : α) : (Res.ok a s).MovesAhead s := ⟨s.cursor, rfl, .refl s⟩

theorem bind {r : Res α} {g : α → State → Res β} (h : r.MovesAhead s)
    (hg : ∀ a c, (g a (s.setCursor c)).MovesAhead (s.setCursor c)) : (r.bind g).MovesAhead s := by
  cases r with
  | ok a t =>
    obtain ⟨c, rfl, hahead⟩ := h
    have hnext := hg a c
    rw [Res.bind_ok]
    cases hr : g a (s.setCursor c) with
    | ok b u =>
      rw [hr] at hnext
      obtain ⟨d, rfl, hahead'⟩ := hnext
      exact ⟨d, rfl, hahead.trans hahead'⟩
    | raised e u =>
      rw [hr] at hnext
      obtain ⟨rfl, d, rfl⟩ := hnext
      exact ⟨rfl, d, rfl⟩
    | stuck f =>
      rw [hr] at hnext
      exact hnext
  | raised e t => exact h
  | stuck f => exact h

/-- The three ends of such an operation. -/
theorem cases {r : Res α} (h : r.MovesAhead s) :
    r = .stuck .busError ∨ (∃ c, r = .raised .malformedStream (s.setCursor c)) ∨
      ∃ a c, r = .ok a (s.setCursor c) ∧ s.Ahead c := by
  cases r with
  | ok a t =>
    obtain ⟨c, rfl, hahead⟩ := h
    exact .inr (.inr ⟨a, c, rfl, hahead⟩)
  | raised e t =>
    obtain ⟨rfl, c, rfl⟩ := h
    exact .inr (.inl ⟨c, rfl⟩)
  | stuck f =>
    cases h
    exact .inl rfl

end Res.MovesAhead

/-- An end check at a later position. -/
theorem checkEnd_cursorAt_movesAhead {s : State} {p : Nat} (h : s.Inside → s.pos ≤ p % 2 ^ 35) :
    (checkEnd (s.cursorAt p)).MovesAhead s := by
  obtain hraised | ⟨hok, hin⟩ := checkEnd_cases (s.cursorAt p)
  · rw [hraised]
    exact ⟨rfl, _, rfl⟩
  · rw [hok]
    exact ⟨_, rfl, fun hs => ⟨hin, (h hs).trans_eq (s.cursorAt_pos_mod p).symm⟩⟩

theorem advance_movesAhead {n : Nat} (hn : n < 2 ^ 34) (s : State) : (advance n s).MovesAhead s := by
  rw [advance_eq]
  refine checkEnd_cursorAt_movesAhead fun hin => ?_
  have := hin.pos_lt
  omega

theorem align_movesAhead (s : State) : (align s).MovesAhead s := by
  rw [align_eq]
  refine checkEnd_cursorAt_movesAhead fun hin => ?_
  have := hin.pos_lt
  omega

theorem read16_movesAhead {n : Nat} (hn : n < 2 ^ 34) (s : State) : (read16 n s).MovesAhead s := by
  unfold read16
  split
  · exact (advance_movesAhead hn s).bind fun _ _ => .pure _
  · exact rfl

theorem readBits_movesAhead {n : Nat} (hn : n < 2 ^ 34) (s : State) : (readBits n s).MovesAhead s := by
  unfold readBits
  split
  · exact read16_movesAhead hn s
  · exact (read16_movesAhead (by omega) s).bind fun _ _ =>
      (read16_movesAhead (by decide) _).bind fun _ _ => .pure _

theorem rawSample_movesAhead {size : Nat} (hsize : size < 2 ^ 34) (s : State) : (rawSample size s).MovesAhead s := by
  unfold rawSample
  split
  · exact (readBits_movesAhead hsize s).bind fun _ _ => .pure _
  · exact (readBits_movesAhead (by decide) s).bind fun _ _ =>
      (readBits_movesAhead (by omega) _).bind fun _ _ => .pure _

/-- An optional second read, for channel 1 of a CPE. -/
theorem second_movesAhead {α : Type} (p : Prop) [Decidable p] {r : Res α} {s : State} (a : α) (h : r.MovesAhead s) :
    (if p then r else .ok a s).MovesAhead s := by
  split
  · exact h
  · exact .pure a

theorem rawSamples_movesAhead {size : Nat} (hsize : size < 2 ^ 34) (nch : Nat) (bug : Bool) (n : Nat) (s : State) :
    (rawSamples nch size bug n s).MovesAhead s := by
  induction n generalizing s with
  | zero => exact .pure []
  | succ n ih =>
    exact (rawSample_movesAhead hsize s).bind fun _ _ =>
      (second_movesAhead _ _ (rawSample_movesAhead hsize _)).bind fun _ _ => (ih _).bind fun _ _ => .pure _

theorem lowPlanes_movesAhead {width : Nat} (hwidth : width < 2 ^ 34) (nch n : Nat) (s : State) :
    (lowPlanes nch width n s).MovesAhead s := by
  induction n generalizing s with
  | zero => exact .pure []
  | succ n ih =>
    exact (readBits_movesAhead hwidth s).bind fun _ _ =>
      (second_movesAhead _ _ (readBits_movesAhead hwidth _)).bind fun _ _ => (ih _).bind fun _ _ => .pure _

/-! ### Audio elements -/

/-- The operation ends the command without having written anything outside the decoder, or it has no step for want of a
byte. -/
def Res.Fails (s : State) (r : Res Unit) : Prop :=
  r = .stuck .busError ∨ ∃ e u, r = .raised e u ∧ u.outside = s.outside

theorem Res.fails_raised {s u : State} (e : ErrKind) (h : u.outside = s.outside) : (Res.raised e u : Res Unit).Fails s :=
  .inr ⟨e, u, rfl, h⟩

theorem Res.fails_stuck (s : State) : (Res.stuck .busError : Res Unit).Fails s := .inl rfl

/-- A check holds, or the operation fails there. -/
theorem require_bind_cases {s u : State} {c : Bool} {e : ErrKind} (g : Unit → State → Res Unit)
    (hu : u.outside = s.outside) :
    ((require c e u).bind g).Fails s ∨ c = true ∧ (require c e u).bind g = g () u := by
  cases c with
  | false => exact .inl (Res.fails_raised e hu)
  | true => exact .inr ⟨rfl, rfl⟩

/-- A read fails, or what follows it runs with the cursor ahead. -/
theorem Res.MovesAhead.bind_cases {α : Type} {s u : State} {r : Res α} (h : r.MovesAhead u) (g : α → State → Res Unit)
    (hu : u.outside = s.outside) :
    (r.bind g).Fails s ∨ ∃ a c, u.Ahead c ∧ r.bind g = g a (u.setCursor c) := by
  obtain rfl | ⟨c, rfl⟩ | ⟨a, c, rfl, hahead⟩ := h.cases
  · exact .inl (Res.fails_stuck s)
  · exact .inl (Res.fails_raised _ hu)
  · exact .inr ⟨a, c, hahead, rfl⟩

/-- The mix fields of an element. -/
def State.withMix (s : State) (shift weight : BitVec 8) : State :=
  s.setParser { s.parser with mixShift := shift, mixWeight := weight }

theorem escapedBody_cases (s : State) :
    (escapedBody s).Fails s ∨
      ∃ l c, s.Ahead c ∧ escapedBody s = finishElement ((s.unmixed.setCursor c).storeSamples l) := by
  rw [escapedBody_eq]
  have hbits := s.cfg.bits.isLt
  exact (rawSamples_movesAhead (by omega) _ _ _ s.unmixed).bind_cases _ rfl

/-- The checks of a compressed element after its mix fields are read (R203, R244). -/
def mixChecks (shift weight : BitVec 8) (s : State) : Res Unit :=
  (require (mixLegal s.nch shift weight) .malformedStream (s.withMix shift weight)).bind fun _ t =>
    (require (t.cfg.kmod.toNat < 32) .malformedStream t).bind fun _ t => .ok () (t.goto .predictor .c0)

theorem compressedBody_eq (s : State) :
    compressedBody s =
      (require (!(s.parser.ub != 0#2 && s.cfg.bits.toNat < 24)) .malformedStream s).bind fun _ t =>
        (require (1 ≤ t.chanBits && t.chanBits ≤ 32) .malformedStream t).bind fun _ t =>
          (readBits 8 t).bind fun shift t => (readBits 8 t).bind fun weight t =>
            mixChecks (shift.setWidth 8) (weight.setWidth 8) t := rfl

theorem mixChecks_cases (shift weight : BitVec 8) (s : State) :
    (mixChecks shift weight s).Fails s ∨
      s.cfg.kmod.toNat < 32 ∧ mixChecks shift weight s = .ok () ((s.withMix shift weight).goto .predictor .c0) := by
  unfold mixChecks
  obtain h | ⟨-, h⟩ := require_bind_cases (s := s) (u := s.withMix shift weight) (c := mixLegal s.nch shift weight) _ rfl
  · exact .inl h
  rw [h]
  obtain h | ⟨hkmod, h⟩ := require_bind_cases (s := s) (u := s.withMix shift weight) _ rfl
  · exact .inl h
  rw [h]
  exact .inr ⟨of_decide_eq_true hkmod, rfl⟩

theorem compressedBody_cases (s : State) :
    (compressedBody s).Fails s ∨
      1 ≤ s.chanBits ∧ s.chanBits ≤ 32 ∧ s.cfg.kmod.toNat < 32 ∧
        ∃ shift weight c, s.Ahead c ∧
          compressedBody s = .ok () (((s.withMix shift weight).setCursor c).goto .predictor .c0) := by
  rw [compressedBody_eq]
  obtain h | ⟨-, h⟩ := require_bind_cases (s := s) (u := s) _ rfl
  · exact .inl h
  rw [h]
  obtain h | ⟨hbits, h⟩ := require_bind_cases (s := s) (u := s) _ rfl
  · exact .inl h
  rw [h]
  have hwidth : 8 < 2 ^ 34 := by decide
  obtain h | ⟨shift, c, hc, h⟩ := (readBits_movesAhead hwidth s).bind_cases (s := s) _ rfl
  · exact .inl h
  rw [h]
  obtain h | ⟨weight, d, hd, h⟩ := (readBits_movesAhead hwidth (s.setCursor c)).bind_cases (s := s) _ rfl
  · exact .inl h
  rw [h]
  obtain h | ⟨hkmod, h⟩ := mixChecks_cases (shift.setWidth 8) (weight.setWidth 8) ((s.setCursor c).setCursor d)
  · exact .inl h
  rw [h]
  rw [Bool.and_eq_true, decide_eq_true_eq, decide_eq_true_eq] at hbits
  exact .inr ⟨hbits.1, hbits.2, hkmod, _, _, d, hc.trans hd, rfl⟩

theorem require_of_eq_false {c : Bool} (h : c = false) (e : ErrKind) (s : State) : require c e s = .raised e s := by
  rw [h, require_false]

/-- A count above `CFG_MAX_SAMPLES` (R239). -/
theorem audioBody_of_overrun {st : ParserState} {h : AudioHeader} {s : State}
    (hcount : s.cfg.maxSamples.toNat < (h.count.getD s.cfg.maxSamples).toNat) :
    ∃ p, audioBody st h s = .raised .bufferOverrun (s.setParser p) := by
  have hover : (!s.cfg.maxSamples.ult (h.count.getD s.cfg.maxSamples)) = false := by
    rw [BitVec.ult_eq_decide, decide_eq_true hcount]
    rfl
  unfold audioBody
  dsimp only
  rw [State.setParser_cfg, hover]
  exact ⟨_, rfl⟩

/-- Channels past `CFG_NUM_CH` (R240). -/
theorem audioBody_of_channels {st : ParserState} {h : AudioHeader} {s : State}
    (hcount : (h.count.getD s.cfg.maxSamples).toNat ≤ s.cfg.maxSamples.toNat)
    (hch : s.cfg.numCh.toNat < s.parser.ci + (s.withHeader st h).nch) :
    ∃ p, audioBody st h s = .raised .malformedStream (s.setParser p) := by
  have hfits : (!s.cfg.maxSamples.ult (h.count.getD s.cfg.maxSamples)) = true := by
    rw [BitVec.ult_eq_decide, Bool.not_eq_true', decide_eq_false_iff_not, not_lt]
    exact hcount
  unfold audioBody
  dsimp only
  rw [State.setParser_cfg, hfits, require_true, Res.bind_ok, require_of_eq_false, Res.bind_raised]
  · exact ⟨_, rfl⟩
  · exact decide_eq_false (not_le.2 hch)

/-- An audio element fails; or its checks hold and, when it is not compressed, its samples are read and its output is
written, or else its mix fields are read and its predictor header is due. -/
theorem audioBody_cases (st : ParserState) (h : AudioHeader) (s : State) :
    (audioBody st h s).Fails s ∨
      ((h.count.getD s.cfg.maxSamples).toNat ≤ s.cfg.maxSamples.toNat ∧
        s.parser.ci + (s.withHeader st h).nch ≤ s.cfg.numCh.toNat) ∧
      ((∃ l c, s.Ahead c ∧
          audioBody st h s = finishElement (((s.withHeader st h).unmixed.setCursor c).storeSamples l)) ∨
        (1 ≤ (s.withHeader st h).chanBits ∧ (s.withHeader st h).chanBits ≤ 32 ∧ s.cfg.kmod.toNat < 32 ∧
          ∃ shift weight c, s.Ahead c ∧ audioBody st h s =
            .ok () ((((s.withHeader st h).withMix shift weight).setCursor c).goto .predictor .c0))) := by
  by_cases hcount : (h.count.getD s.cfg.maxSamples).toNat ≤ s.cfg.maxSamples.toNat
  case neg =>
    obtain ⟨p, hraised⟩ := audioBody_of_overrun (st := st) (not_le.1 hcount)
    rw [hraised]
    exact .inl (Res.fails_raised _ rfl)
  by_cases hch : s.parser.ci + (s.withHeader st h).nch ≤ s.cfg.numCh.toNat
  case neg =>
    obtain ⟨p, hraised⟩ := audioBody_of_channels hcount (not_le.1 hch)
    rw [hraised]
    exact .inl (Res.fails_raised _ rfl)
  rw [audioBody_of_checks hcount hch]
  split
  · obtain hfail | hread := escapedBody_cases (s.withHeader st h)
    · exact .inl hfail
    · exact .inr ⟨⟨hcount, hch⟩, .inl hread⟩
  · obtain hfail | hbegin := compressedBody_cases (s.withHeader st h)
    · exact .inl hfail
    · exact .inr ⟨⟨hcount, hch⟩, .inr hbegin⟩

/-! ### Predictor headers and codewords -/

/-- The low-bit values of both channels. -/
def State.setLow (s : State) (l0 l1 : List Word) : State :=
  { s with ch0 := { s.ch0 with low := l0 }, ch1 := { s.ch1 with low := l1 } }

@[simp] theorem State.outside_setLow (s : State) (l0 l1 : List Word) : (s.setLow l0 l1).outside = s.outside := rfl

theorem readLowPlanes_cases (s : State) :
    (∃ c, readLowPlanes s = .raised .malformedStream (s.setCursor c)) ∨ readLowPlanes s = .stuck .busError ∨
      ∃ l0 l1 c, s.Ahead c ∧ readLowPlanes s = .ok () ((s.setCursor c).setLow l0 l1) := by
  unfold readLowPlanes
  split
  · exact .inr (.inr ⟨s.ch0.low, s.ch1.low, s.cursor, .refl s, rfl⟩)
  · have hub := s.parser.ub.isLt
    obtain h | ⟨c, h⟩ | ⟨l, c, h, hc⟩ :=
      (lowPlanes_movesAhead (by omega) s.nch s.parser.n.toNat s : (lowPlanes s.nch (8 * s.parser.ub.toNat) _ s).MovesAhead s).cases
    · exact .inr (.inl (by rw [h]; rfl))
    · exact .inl ⟨c, by rw [h]; rfl⟩
    · refine .inr (.inr ?_)
      rw [h, Res.bind_ok]
      dsimp only
      split
      · exact ⟨_, _, c, hc, rfl⟩
      · exact ⟨_, s.ch1.low, c, hc, rfl⟩

/-- How the end of a channel's run can go (R247): the predictor raises; or the run of channel 1 begins; or the last channel is
predicted and the output is written; or both are, in an element of no samples. -/
inductive ChannelEnds (s : State) : Res Unit → Prop where
  | fails {r : Res Unit} (h : r.Fails s) : ChannelEnds s r
  | second (r : ChanRegs) (hchan : s.chan = .c0) (hnch : s.nch = 2) (hn : s.parser.n ≠ 0#32)
      (hr : reconstructChan s.chanBits.toNat s.ch0 = some r) :
      ChannelEnds s (.ok () ((s.setCh .c0 r).initRun .c1))
  | finish (r : ChanRegs) (hlast : s.chan = .c1 ∨ s.nch ≠ 2)
      (hr : reconstructChan s.chanBits.toNat (s.ch s.chan) = some r) :
      ChannelEnds s (finishElement (s.setCh s.chan r))
  | empty (r r' : ChanRegs) (hchan : s.chan = .c0) (hnch : s.nch = 2) (hn : s.parser.n = 0#32)
      (hr : reconstructChan s.chanBits.toNat s.ch0 = some r)
      (hr' : reconstructChan s.chanBits.toNat { s.ch1 with res := [] } = some r') :
      ChannelEnds s (finishElement (((s.setCh .c0 r).initRun .c1).setCh .c1 r'))

theorem channelDone_ends (s : State) : ChannelEnds s (channelDone s) := by
  unfold channelDone
  split
  case h_1 hchan =>
    unfold firstChannelDone
    obtain ⟨h, -⟩ | ⟨r, hr, h⟩ := reconstruct_cases .c0 s
    · rw [h]
      exact .fails (Res.fails_raised _ rfl)
    rw [h, Res.bind_ok, State.setCh_nch]
    by_cases hnch : s.nch = 2
    case neg =>
      rw [if_neg hnch]
      have hfinish := ChannelEnds.finish (s := s) r (.inr hnch) (by rw [hchan]; exact hr)
      rwa [hchan] at hfinish
    rw [if_pos hnch, beginSecondRun, State.setCh_parser]
    by_cases hn : s.parser.n = 0#32
    case neg =>
      rw [if_neg hn]
      exact .second r hchan hnch hn hr
    rw [if_pos hn, lastChannelDone]
    obtain ⟨h, -⟩ | ⟨r', hr', h⟩ := reconstruct_cases .c1 ((s.setCh .c0 r).initRun .c1)
    · rw [h]
      exact .fails (Res.fails_raised _ ((State.outside_initRun _ _).trans (State.outside_setCh _ _ _)))
    · rw [h]
      exact .empty r r' hchan hnch hn hr hr'
  case h_2 hchan =>
    unfold lastChannelDone
    obtain ⟨h, -⟩ | ⟨r, hr, h⟩ := reconstruct_cases .c1 s
    · rw [h]
      exact .fails (Res.fails_raised _ rfl)
    · rw [h, Res.bind_ok]
      have hfinish := ChannelEnds.finish (s := s) r (.inl hchan) (by rw [hchan]; exact hr)
      rwa [hchan] at hfinish

/-- The state after a predictor header is loaded (R245). -/
def State.loaded (s : State) (m q : BitVec 4) (r : BitVec 3) (n : BitVec 5) (cs : List (BitVec 16)) : State :=
  s.setCh s.chan ((s.ch s.chan).loadHeader m q r n cs)

@[simp] theorem State.outside_loaded (s : State) (m q : BitVec 4) (r : BitVec 3) (n : BitVec 5) (cs : List (BitVec 16)) :
    (s.loaded m q r n cs).outside = s.outside := s.outside_setCh _ _

/-- How a predictor header can go: the header of channel 1 is due; or the low-bit planes run past the end; or the run of
channel 0 begins, and ends at once in an element of no samples. -/
theorem predictorBody_cases (m q : BitVec 4) (r : BitVec 3) (n : BitVec 5) (cs : List (BitVec 16)) (s : State) :
    (s.chan = .c0 ∧ s.nch = 2 ∧ predictorBody m q r n cs s = .ok () ((s.loaded m q r n cs).goto .predictor .c1)) ∨
      (predictorBody m q r n cs s).Fails s ∨
      ∃ l0 l1 c, s.Ahead c ∧
        ((s.parser.n ≠ 0#32 ∧
            predictorBody m q r n cs s = .ok () ((((s.loaded m q r n cs).setCursor c).setLow l0 l1).initRun .c0)) ∨
          (s.parser.n = 0#32 ∧
            ChannelEnds ((((s.loaded m q r n cs).setCursor c).setLow l0 l1).initRun .c0) (predictorBody m q r n cs s))) := by
  have hbody : predictorBody m q r n cs s =
      if s.chan = .c0 ∧ s.nch = 2 then .ok () ((s.loaded m q r n cs).goto .predictor .c1)
      else (readLowPlanes (s.loaded m q r n cs)).bind fun _ t => beginFirstRun t := by
    simp only [predictorBody, State.loaded, State.setCh_chan, State.setCh_nch]
  rw [hbody]
  by_cases hfirst : s.chan = .c0 ∧ s.nch = 2
  · rw [if_pos hfirst]
    exact .inl ⟨hfirst.1, hfirst.2, rfl⟩
  refine .inr ?_
  rw [if_neg hfirst]
  obtain ⟨c, h⟩ | h | ⟨l0, l1, c, hc, h⟩ := readLowPlanes_cases (s.loaded m q r n cs)
  · rw [h]
    exact .inl (Res.fails_raised _ (by simp))
  · rw [h]
    exact .inl (Res.fails_stuck s)
  rw [h, Res.bind_ok, beginFirstRun]
  have hparser : (((s.loaded m q r n cs).setCursor c).setLow l0 l1).parser.n = s.parser.n :=
    congrArg Parser.n (s.setCh_parser _ _)
  have hahead : s.Ahead c := hc.congr (s.setCh_cursor _ _) (s.setCh_port _ _)
  refine .inr ⟨l0, l1, c, hahead, ?_⟩
  rw [hparser]
  by_cases hn : s.parser.n = 0#32
  · rw [if_pos hn]
    exact .inr ⟨hn, channelDone_ends _⟩
  · rw [if_neg hn]
    exact .inl ⟨hn, rfl⟩

/-- Values are stored in s': another codeword is due, or the channel's run ends. -/
def RunGoesOn (s' : State) (g : Stage) (r : Res Unit) : Prop :=
  ((s'.ch s'.chan).res.length < s'.parser.n.toNat ∧ r = .ok () (s'.goto g s'.chan)) ∨ ChannelEnds s' r

theorem nextValue_goesOn (s : State) : RunGoesOn s .residual (nextValue s) := by
  unfold nextValue
  split
  case isTrue hlt => exact .inl ⟨hlt, rfl⟩
  case isFalse => exact .inr (channelDone_ends s)

/-- A residual's codeword stores one value (R160, R161). -/
theorem residualBody_goesOn (c : Codeword) (s : State) :
    ∃ v rice g, rice.signMod = 0#32 ∧ (g = .residual ∨ g = .zeroRun) ∧
      RunGoesOn ((s.pushRes [v]).setRice rice) g (residualBody c s) := by
  unfold residualBody
  generalize hd : codewordValue s.nextK.toNat 0xFFFFFFFF#32 c + s.rice.signMod = d
  have hchan : (s.storeValue d).chan = s.chan := s.setCh_chan _ _
  have hn : (s.storeValue d).parser.n = s.parser.n := congrArg Parser.n (s.setCh_parser _ _)
  refine ⟨unzigzag d, ⟨historyAfter s.rice.history d s.pb, 0#32, s.nextK⟩, ?_⟩
  dsimp only
  split
  case isTrue hzero =>
    refine ⟨.zeroRun, rfl, .inr rfl, .inl ⟨?_, ?_⟩⟩
    · change ((s.storeValue d).ch (s.storeValue d).chan).res.length < (s.storeValue d).parser.n.toNat
      rw [hchan, hn]
      exact hzero.2
    · change _ = Res.ok () ((s.storeValue d).goto .zeroRun (s.storeValue d).chan)
      rw [hchan]
  case isFalse => exact ⟨.residual, rfl, .inl rfl, nextValue_goesOn (s.storeValue d)⟩

/-- A zero run's codeword overruns, or stores zeros (R163). -/
theorem zeroRunBody_goesOn (c : Codeword) (s : State) :
    zeroRunBody c s = .raised .bufferOverrun s ∨
      ∃ z rice, rice.signMod.toNat ≤ 1 ∧
        RunGoesOn ((s.pushRes (List.replicate z 0#32)).setRice rice) .residual (zeroRunBody c s) := by
  unfold zeroRunBody
  dsimp only
  generalize codewordValue (zeroRunK s.rice.history).toNat s.zeroRunMask c = bs
  generalize (if (0#32).slt bs then bs.toNat else 0) = z
  split
  · exact .inl rfl
  · refine .inr ⟨_, _, ?_, nextValue_goesOn _⟩
    dsimp only
    split <;> decide

/-! ### Skips and the end of the frame -/

/-- The parser reads the next tag. -/
def State.atTag (s : State) (c : Cursor) : State :=
  ((s.setParser { s.parser with state := .fetchTag }).setCursor c).goto .element .c0

theorem gapBytes_lt (cnt : BitVec 4) (ext : Option (BitVec 8)) : 8 * gapBytes cnt ext < 2 ^ 34 := by
  have hcnt := cnt.isLt
  have hext := (ext.getD 0#8).isLt
  unfold gapBytes
  split <;> omega

theorem fillBytes_lt (cnt : BitVec 8) (ext : Option (BitVec 8)) : 8 * fillBytes cnt ext < 2 ^ 34 := by
  have hcnt := cnt.isLt
  have hext := (ext.getD 0#8).isLt
  unfold fillBytes
  split <;> omega

theorem gapBody_cases (cnt : BitVec 4) (ext : Option (BitVec 8)) (s : State) :
    (gapBody cnt ext s).Fails s ∨ ∃ c, s.Ahead c ∧ gapBody cnt ext s = .ok () (s.atTag c) := by
  unfold gapBody
  obtain h | ⟨c, h⟩ | ⟨_, c, h, hc⟩ :=
    (advance_movesAhead (gapBytes_lt cnt ext) (s.setParser { s.parser with state := .gap })).cases
  · exact .inl (h ▸ Res.fails_stuck s)
  · exact .inl (h ▸ Res.fails_raised _ rfl)
  · exact .inr ⟨c, hc, h ▸ rfl⟩

/-- The parser inside a FILL. -/
def State.inFill (s : State) : State := s.setParser { s.parser with state := .fill }

theorem fillBody_eq (al : Bool) (cnt : BitVec 8) (ext : Option (BitVec 8)) (s : State) :
    fillBody al cnt ext s =
      (if al then align s.inFill else .ok () s.inFill : Res Unit).bind fun _ t =>
        (advance (8 * fillBytes cnt ext) t).bind fun _ t => .ok () (t.atTag t.cursor) := rfl

theorem fillBody_cases (al : Bool) (cnt : BitVec 8) (ext : Option (BitVec 8)) (s : State) :
    (fillBody al cnt ext s).Fails s ∨ ∃ c, s.Ahead c ∧ fillBody al cnt ext s = .ok () (s.atTag c) := by
  have halign : (if al then align s.inFill else .ok () s.inFill : Res Unit).MovesAhead s.inFill :=
    second_movesAhead _ _ (align_movesAhead _)
  rw [fillBody_eq]
  obtain h | ⟨c, h⟩ | ⟨_, c, h, hc⟩ := halign.cases
  · exact .inl (h ▸ Res.fails_stuck s)
  · exact .inl (h ▸ Res.fails_raised _ rfl)
  rw [h, Res.bind_ok]
  obtain h | ⟨d, h⟩ | ⟨_, d, h, hd⟩ := (advance_movesAhead (fillBytes_lt cnt ext) (s.inFill.setCursor c)).cases
  · exact .inl (h ▸ Res.fails_stuck s)
  · exact .inl (h ▸ Res.fails_raised _ rfl)
  · exact .inr ⟨d, hc.trans hd, h ▸ rfl⟩

/-- The end of a frame: the parser in HALT, `OUT_LEN` the high-water mark (R254). -/
def State.frameDone (s : State) (c : Cursor) : State :=
  { s with cursor := c, parser := { s.parser with state := .halt }, port := { s.port with outLen := s.parser.hwm } }

theorem endBody_cases (s : State) :
    (endBody s).Fails s ∨ ∃ c, s.Ahead c ∧ endBody s = .ok () (s.frameDone c).endCommand := by
  unfold endBody
  obtain h | ⟨c, h⟩ | ⟨_, c, h, hc⟩ := (align_movesAhead (s.setParser { s.parser with state := .endCheck })).cases
  · exact .inl (h ▸ Res.fails_stuck s)
  · exact .inl (h ▸ Res.fails_raised _ rfl)
  rw [h, Res.bind_ok, State.setCursor_cursor, State.setCursor_port, State.setParser_port]
  cases c.byteIdx == s.port.inLen with
  | false => exact .inl (Res.fails_raised _ rfl)
  | true => exact .inr ⟨c, hc, rfl⟩

/-! ### Host commands -/

theorem exec_brSeek_of_not_args {a b : BitVec 6} (s : State) (h : ¬ argsZero a b = true) :
    exec (.brSeek a b) s = .next (s.raiseError .hostContract) := by
  rw [exec, execBrSeek, brSeekBody, Bool.eq_false_iff.2 h, require_false, Res.bind_raised, Res.outcome_raised]

/-- BR_SEEK is an end check at `DATA_IN` (R131). -/
theorem exec_brSeek_of_args {a b : BitVec 6} (s : State) (h : argsZero a b = true) :
    exec (.brSeek a b) s = ((checkEnd (s.cursorAt s.port.dataIn.toNat)).bind fun _ t => .ok () t.endCommand).outcome := by
  have hcursor : s.setCursor ⟨s.port.dataIn >>> 3, s.port.dataIn.setWidth 3⟩ = s.cursorAt s.port.dataIn.toNat := by
    unfold State.cursorAt
    have hlt := s.port.dataIn.isLt
    congr 2
    · refine BitVec.eq_of_toNat_eq ?_
      rw [BitVec.toNat_ushiftRight, Nat.shiftRight_eq_div_pow, BitVec.toNat_ofNat]
      omega
    · refine BitVec.eq_of_toNat_eq ?_
      rw [BitVec.toNat_setWidth, BitVec.toNat_ofNat]
      omega
  rw [exec, execBrSeek, brSeekBody, h, require_true, Res.bind_ok, hcursor]

theorem exec_brUnread_of_not_args {a b : BitVec 6} (s : State) (h : ¬ readArgs a b = true) :
    exec (.brUnread a b) s = .next (s.raiseError .hostContract) := by
  rw [exec, execBrUnread, brUnreadBody, Bool.eq_false_iff.2 h, require_false, Res.bind_raised, Res.outcome_raised]

theorem exec_brUnread_of_args {a b : BitVec 6} (s : State) (h : readArgs a b = true) :
    exec (.brUnread a b) s = ((unreadBits a.toNat s).bind fun _ t => .ok () t.endCommand).outcome := by
  rw [exec, execBrUnread, brUnreadBody, h, require_true, Res.bind_ok]

theorem exec_riceValue_of_not_args {a b : BitVec 6} (s : State) (h : ¬ riceArgs a b = true) :
    exec (.riceValue a b) s = .next (s.raiseError .hostContract) := by
  rw [exec, execRiceValue, riceValueBody, Bool.eq_false_iff.2 h, require_false, Res.bind_raised, Res.outcome_raised]

theorem exec_decode_of_not_ready {a b : BitVec 6} (s : State) (h : ¬ (argsZero a b && s.decodeReady) = true) :
    exec (.decode a b) s = .next (s.raiseError .hostContract) := by
  rw [exec, execDecode, decodeBody, Bool.eq_false_iff.2 h, require_false, Res.bind_raised, Res.outcome_raised]

theorem exec_decode_of_ready {a b : BitVec 6} (s : State) (h : (argsZero a b && s.decodeReady) = true) :
    exec (.decode a b) s = .next s.startFrame := by
  rw [exec, execDecode, decodeBody, h, require_true, Res.bind_ok, Res.outcome_ok]

theorem exec_configure_of_not_args {a b : BitVec 6} (s : State) (h : ¬ argsZero a b = true) :
    exec (.configure a b) s = .next (s.raiseError .hostContract) := by
  rw [exec, execConfigure, configureBody, Bool.eq_false_iff.2 h, require_false, Res.bind_raised, Res.outcome_raised]

/-- CONFIGURE raises and clears the configuration, or has no cookie to read, or loads a legal one (R231 to R233). -/
theorem exec_configure_cases (a b : BitVec 6) (s : State) :
    exec (.configure a b) s = .next (s.raiseError .hostContract) ∨
      exec (.configure a b) s = .next ((s.setCfg .clear).raiseError .invalidConfig) ∨
      exec (.configure a b) s = .fault .busError ∨
      ∃ l, cookieLegal l = true ∧ exec (.configure a b) s = .next (s.setCfg (cookieCfg l)).dropScratch.endCommand := by
  by_cases hargs : argsZero a b = true
  case neg => exact .inl (exec_configure_of_not_args s hargs)
  refine .inr ?_
  rw [exec, execConfigure, configureBody, hargs, require_true, Res.bind_ok]
  split
  · exact .inl rfl
  cases s.cookie with
  | none => exact .inr (.inl rfl)
  | some l =>
    dsimp only
    split
    case isTrue hlegal => exact .inr (.inr ⟨l, hlegal, rfl⟩)
    case isFalse => exact .inl rfl

/-- The four unit-test commands that put a result in `DATA_OUT`. -/
def HasResult (i : Instr) : Prop :=
  ∃ a b, i = .brRead a b ∨ i = .brReadBit a b ∨ i = .lzc a b ∨ i = .riceValue a b

/-- How a unit-test command can end: no byte to read; an error; or success, with a result in `DATA_OUT`. -/
inductive UnitTestEnds (i : Instr) (s : State) : Host.Outcome State Fault Refusal → Prop where
  | stuck : UnitTestEnds i s (.fault .busError)
  | error (e : ErrKind) (c : Cursor) (hlzc : (∃ a b, i = .lzc a b) → c = s.cursor) :
      UnitTestEnds i s (.next ((s.setCursor c).raiseError e))
  | success (c : Cursor) (v : Word) (hlzc : (∃ a b, i = .lzc a b) → c = s.cursor)
      (hresult : HasResult i ∨ v = s.port.dataOut) :
      UnitTestEnds i s (.next ((s.setCursor c).setDataOut v).endCommand)

/-- A command turned away for its arguments. -/
theorem UnitTestEnds.turnedAway {i : Instr} {s : State} (h : exec i s = .next (s.raiseError .hostContract)) :
    UnitTestEnds i s (exec i s) :=
  h ▸ .error .hostContract s.cursor fun _ => rfl

/-- A command that moves the cursor and puts what it found in `DATA_OUT`. -/
theorem UnitTestEnds.of_moves {α : Type} {i : Instr} {s : State} {r : Res α} {g : α → State → Word}
    (hr : r.MovesCursor s) (hi : ∀ a b, i ≠ .lzc a b) (hg : HasResult i ∨ ∀ a c, g a (s.setCursor c) = s.port.dataOut)
    (h : exec i s = (r.bind fun a t => .ok () (t.setDataOut (g a t)).endCommand).outcome) :
    UnitTestEnds i s (exec i s) := by
  have hlzc (c : Cursor) : (∃ a b, i = .lzc a b) → c = s.cursor := fun ⟨a, b, hab⟩ => absurd hab (hi a b)
  rw [h]
  cases r with
  | ok a t =>
    obtain ⟨c, rfl, -⟩ := hr
    exact .success c (g a (s.setCursor c)) (hlzc c) (hg.imp id fun hsame => hsame a c)
  | raised e t =>
    obtain ⟨rfl, c, rfl⟩ := hr
    exact .error _ c (hlzc c)
  | stuck f =>
    cases hr
    exact .stuck

theorem exec_unitTest_ends {i : Instr} {a b : BitVec 6} (s : State)
    (hi : i ∈ [.brSeek a b, .brRead a b, .brReadBit a b, .brUnread a b, .lzc a b, .riceValue a b]) :
    UnitTestEnds i s (exec i s) := by
  simp only [List.mem_cons, List.not_mem_nil, or_false] at hi
  obtain rfl | rfl | rfl | rfl | rfl | rfl := hi
  · by_cases hargs : argsZero a b = true
    · exact .of_moves (g := fun _ t => t.port.dataOut) (checkEnd_setCursor_moves s _) (by simp) (.inr fun _ _ => rfl)
        (exec_brSeek_of_args s hargs)
    · exact .turnedAway (exec_brSeek_of_not_args s hargs)
  · by_cases hargs : readArgs a b = true
    · exact .of_moves (g := fun v _ => v) (readBits_moves _ s) (by simp) (.inl ⟨a, b, .inl rfl⟩)
        (exec_brRead_of_args s hargs)
    · exact .turnedAway (exec_brRead_of_not_args s hargs)
  · by_cases hargs : argsZero a b = true
    · exact .of_moves (g := fun v _ => (BitVec.ofBool v).setWidth 32) (readBit_moves s) (by simp)
        (.inl ⟨a, b, .inr (.inl rfl)⟩) (exec_brReadBit_of_args s hargs)
    · exact .turnedAway (exec_brReadBit_of_not_args s hargs)
  · by_cases hargs : readArgs a b = true
    · exact .of_moves (g := fun _ t => t.port.dataOut) (unreadBits_moves _ s) (by simp) (.inr fun _ _ => rfl)
        (exec_brUnread_of_args s hargs)
    · exact .turnedAway (exec_brUnread_of_not_args s hargs)
  · by_cases hargs : argsZero a b = true
    · rw [exec_lzc_of_args s hargs]
      exact .success s.cursor _ (fun _ => rfl) (.inl ⟨a, b, .inr (.inr (.inl rfl))⟩)
    · exact .turnedAway (exec_lzc_of_not_args s hargs)
  · by_cases hargs : riceArgs a b = true
    · exact .of_moves (g := fun v _ => v) (decodeValue_moves _ _ _ s) (by simp) (.inl ⟨a, b, .inr (.inr (.inr rfl))⟩)
        (exec_riceValue_of_args s hargs)
    · exact .turnedAway (exec_riceValue_of_not_args s hargs)

end Sys2Proof.Machine

namespace Sys2Proof.Proofs
open Sys2Proof.Machine

/-- Settles O20: each of these words is turned away by its first check, and a reserved word always. -/
theorem badCommandWordsRaise : Obligations.BadCommandWordsRaise := by
  intro s a b w
  refine ⟨rfl, fun hbad => ?_, fun hbad => ?_, fun hbad => ?_⟩
  · have hargs : ¬ argsZero a b = true := by rw [argsZero_iff, not_and_or]; exact hbad
    exact ⟨exec_configure_of_not_args s hargs, exec_decode_of_not_ready s (by simp [hargs]),
      exec_brSeek_of_not_args s hargs, exec_brReadBit_of_not_args s hargs, exec_lzc_of_not_args s hargs⟩
  · have hargs : ¬ readArgs a b = true := by rw [readArgs_iff, not_and_or, not_le]; exact hbad
    exact ⟨exec_brRead_of_not_args s hargs, exec_brUnread_of_not_args s hargs⟩
  · refine exec_riceValue_of_not_args s ?_
    have hzero : a = 0#6 ↔ a.toNat = 0 := BitVec.toNat_eq
    rw [hzero] at hbad
    rw [riceArgs_iff]
    omega

/-- Settles O27: the read of the part that fails raises where it has moved the cursor. -/
theorem readPastTheEnd : Obligations.ReadPastTheEnd :=
  fun _ _ hn hr hpos hmax hend => readBits_eq_raised hn hr hpos hmax hend

/-- Settles O30: BR_SEEK is its argument check and the end check at `DATA_IN`. -/
theorem brSeekMovesCursor : Obligations.BrSeekMovesCursor := by
  intro s a b
  have hlt := s.port.dataIn.isLt
  split
  case isTrue hbad => exact exec_brSeek_of_not_args s (by rw [argsZero_iff, not_and_or]; exact hbad)
  case isFalse hgood =>
    rw [← not_and_or, not_not] at hgood
    rw [exec_brSeek_of_args s ((argsZero_iff a b).2 hgood)]
    split
    case isTrue hin => rw [checkEnd_cursorAt_of_le hin (by omega), Res.bind_ok, Res.outcome_ok]
    case isFalse hout =>
      rw [checkEnd_cursorAt_of_lt (by rw [State.endPos]; omega) (by omega), Res.bind_raised, Res.outcome_raised]

/-- Settles O32: BR_UNREAD is its argument check and the move back, which raises below bit 0. -/
theorem brUnreadMovesBack : Obligations.BrUnreadMovesBack := by
  intro s a b
  split
  case isTrue hbad => exact exec_brUnread_of_not_args s (by rw [readArgs_iff, not_and_or, not_le]; exact hbad)
  case isFalse hgood =>
    rw [← not_le, ← not_and_or, not_not] at hgood
    rw [exec_brUnread_of_args s ((readArgs_iff a b).2 hgood)]
    obtain ⟨hbelow, h⟩ | ⟨hidx, hpos, h⟩ := unreadBits_cases a.toNat s
    · rw [h, if_neg (by omega), Res.bind_raised, Res.outcome_raised]
    · rw [h, if_pos ⟨hpos, hidx⟩, Res.bind_ok, Res.outcome_ok]

/-- Settles O34: a unit-test command ends by an error or by writing its result, and neither writes anything else. -/
theorem unitTestFrame : Obligations.UnitTestFrame := by
  intro i s t a b hi h
  have hends := exec_unitTest_ends s hi
  rw [h] at hends
  have hlzc (hi : i = .lzc a b) : ∃ a b, i = .lzc a b := ⟨a, b, hi⟩
  cases hends with
  | error e c hc =>
    have hcode : e.code ≠ 0#4 := by cases e <;> decide
    refine ⟨fun _ => rfl, rfl, rfl, rfl, ?_, fun hzero => absurd hzero hcode, fun hi => hc (hlzc hi)⟩
    rw [State.raiseError_port]
    simp only [ne_eq, hcode, not_false_eq_true, true_and]
    rfl
  | success c v hc =>
    refine ⟨fun _ => rfl, rfl, rfl, rfl, ?_, fun _ => ⟨rfl, rfl, rfl, rfl⟩, fun hi => hc (hlzc hi)⟩
    simp

end Sys2Proof.Proofs
end

section
/-! What elements, predictor headers and codewords leave in memory, the host port and the decoder registers, and what every instruction
can leave: the statements about what is written and how a command ends. -/

namespace Sys2Proof.Machine

/-! ### The frame of audio elements, predictor headers and codewords -/

/-- The operation fails, or goes on inside the element with nothing written outside the decoder, or ends an element of n
samples and nch channels. -/
def Res.ElementFrame (s : State) (n : Word) (nch : Nat) (r : Res Unit) : Prop :=
  r.Fails s ∨ (∃ t, r = .ok () t ∧ t.outside = s.outside ∧ t.InElement) ∨
    ∃ u, r = finishElement u ∧ u.outside = s.outside ∧ u.parser.n = n ∧ u.nch = nch ∧ u.parser.ci = s.parser.ci

theorem Res.Fails.of_outside {s s' : State} {r : Res Unit} (h : r.Fails s') (hs : s'.outside = s.outside) : r.Fails s :=
  h.imp id fun ⟨e, u, hr, hu⟩ => ⟨e, u, hr, hu.trans hs⟩

theorem Res.ElementFrame.of_outside {s s' : State} {n : Word} {nch : Nat} {r : Res Unit} (h : r.ElementFrame s' n nch)
    (hs : s'.outside = s.outside) (hci : s'.parser.ci = s.parser.ci) : r.ElementFrame s n nch := by
  obtain h | ⟨t, hr, ht, hin⟩ | ⟨u, hr, hu, hn, hnch, huci⟩ := h
  · exact .inl (h.of_outside hs)
  · exact .inr (.inl ⟨t, hr, ht.trans hs, hin⟩)
  · exact .inr (.inr ⟨u, hr, hu.trans hs, hn, hnch, huci.trans hci⟩)

@[simp] theorem State.storeSamples_parser (s : State) (l : List (Word × Word)) : (s.storeSamples l).parser = s.parser := by
  unfold State.storeSamples
  split <;> rfl

@[simp] theorem State.initRun_parser (s : State) (c : Ch) : (s.initRun c).parser = s.parser := by
  cases c <;> rfl

@[simp] theorem State.pushRes_parser (s : State) (l : List Word) : (s.pushRes l).parser = s.parser := s.setCh_parser _ _

@[simp] theorem State.loaded_parser (s : State) (m q : BitVec 4) (r : BitVec 3) (n : BitVec 5) (cs : List (BitVec 16)) :
    (s.loaded m q r n cs).parser = s.parser := s.setCh_parser _ _

/-- The number of channels is a matter of the parser state. -/
theorem State.nch_congr {s u : State} (h : u.parser.state = s.parser.state) : u.nch = s.nch := by
  rw [State.nch, State.nch, h]

theorem ChannelEnds.elementFrame {s : State} {r : Res Unit} (h : ChannelEnds s r) :
    r.ElementFrame s s.parser.n s.nch := by
  cases h with
  | fails h => exact .inl h
  | second r => exact .inr (.inl ⟨_, rfl, (State.outside_initRun _ _).trans (State.outside_setCh _ _ _), .inr (.inl rfl)⟩)
  | finish r =>
    refine .inr (.inr ⟨_, rfl, State.outside_setCh _ _ _, ?_⟩)
    rw [State.setCh_parser, State.setCh_nch]
    exact ⟨rfl, rfl, rfl⟩
  | empty r r' =>
    refine .inr (.inr ⟨_, rfl, ?_, ?_⟩)
    · rw [State.outside_setCh, State.outside_initRun, State.outside_setCh]
    · exact ⟨rfl, rfl, rfl⟩

theorem RunGoesOn.elementFrame {s : State} {g : Stage} {r : Res Unit} (hg : g = .residual ∨ g = .zeroRun)
    (h : RunGoesOn s g r) : r.ElementFrame s s.parser.n s.nch := by
  obtain ⟨-, hr⟩ | hends := h
  · exact .inr (.inl ⟨_, hr, rfl, .inr hg⟩)
  · exact hends.elementFrame

theorem residualBody_elementFrame (c : Codeword) (s : State) :
    (residualBody c s).ElementFrame s s.parser.n s.nch := by
  obtain ⟨v, rice, g, -, hg, hrun⟩ := residualBody_goesOn c s
  have hframe := (hrun.elementFrame hg).of_outside (s := s) (State.outside_pushRes _ _) (by simp)
  rw [State.nch_congr (s := s) (by simp)] at hframe
  simpa using hframe

theorem zeroRunBody_elementFrame (c : Codeword) (s : State) :
    (zeroRunBody c s).ElementFrame s s.parser.n s.nch := by
  obtain h | ⟨z, rice, -, hrun⟩ := zeroRunBody_goesOn c s
  · rw [h]
    exact .inl (Res.fails_raised _ rfl)
  · have hframe := (hrun.elementFrame (.inl rfl)).of_outside (s := s) (State.outside_pushRes _ _) (by simp)
    rw [State.nch_congr (s := s) (by simp)] at hframe
    simpa using hframe

theorem predictorBody_elementFrame (m q : BitVec 4) (r : BitVec 3) (n : BitVec 5) (cs : List (BitVec 16)) (s : State) :
    (predictorBody m q r n cs s).ElementFrame s s.parser.n s.nch := by
  obtain ⟨-, -, h⟩ | h | ⟨l0, l1, c, -, ⟨-, h⟩ | ⟨-, hends⟩⟩ := predictorBody_cases m q r n cs s
  · exact .inr (.inl ⟨_, h, State.outside_loaded _ _ _ _ _ _, .inl rfl⟩)
  · exact .inl h
  · exact .inr (.inl ⟨_, h, by simp, .inr (.inl rfl)⟩)
  · have hparser : ((((s.loaded m q r n cs).setCursor c).setLow l0 l1).initRun .c0).parser = s.parser :=
      (State.initRun_parser _ _).trans (State.loaded_parser _ _ _ _ _ _)
    have hframe := hends.elementFrame.of_outside (s := s) (by simp) (by rw [hparser])
    rwa [State.nch_congr (s := s) (by rw [hparser]), hparser] at hframe

theorem audioBody_elementFrame (st : ParserState) (h : AudioHeader) (s : State) :
    (audioBody st h s).ElementFrame s (h.count.getD s.cfg.maxSamples) (s.withHeader st h).nch := by
  obtain hfail | ⟨-, ⟨l, c, -, hr⟩ | ⟨-, -, -, shift, weight, c, -, hr⟩⟩ := audioBody_cases st h s
  · exact .inl hfail
  · refine .inr (.inr ⟨_, hr, by simp, ?_, ?_, ?_⟩)
    · rw [State.storeSamples_parser]; rfl
    · exact State.nch_congr (by rw [State.storeSamples_parser]; rfl)
    · rw [State.storeSamples_parser]; rfl
  · exact .inr (.inl ⟨_, hr, rfl, .inl rfl⟩)

/-! ### The instructions of these kinds -/

theorem exec_of_audioForms {i : Instr} {st : ParserState} {nch : Nat} {h : AudioHeader}
    (hi : (i, st, nch) ∈ audioForms h) (s : State) :
    exec i s = (audioBody st h s).outcome ∧ (s.withHeader st h).nch = nch := by
  simp only [audioForms, List.mem_cons, Prod.mk.injEq, List.not_mem_nil, or_false] at hi
  obtain ⟨rfl, rfl, rfl⟩ | ⟨rfl, rfl, rfl⟩ | ⟨rfl, rfl, rfl⟩ := hi
  all_goals exact ⟨rfl, rfl⟩

theorem exec_of_headerOf {i : Instr} {m q : BitVec 4} {r : BitVec 3} {n : BitVec 5} {cs : List (BitVec 16)}
    (h : headerOf i = some (m, q, r, n, cs)) (s : State) : exec i s = (predictorBody m q r n cs s).outcome := by
  cases i <;> cases h <;> rfl

theorem exec_residualOf (c : Codeword) (s : State) : exec (residualOf c) s = (residualBody c s).outcome := by
  cases c <;> rfl

theorem exec_elementFrame {i : Instr} {s : State} {n : Word} {nch : Nat}
    (hi : (∃ h st, (i, st, nch) ∈ audioForms h ∧ n = h.count.getD s.cfg.maxSamples) ∨
      (((headerOf i).isSome = true ∨ (∃ c, i = residualOf c) ∨ ∃ c, i = .zeroRun c) ∧ n = s.parser.n ∧ nch = s.nch)) :
    ∃ r : Res Unit, exec i s = r.outcome ∧ r.ElementFrame s n nch := by
  obtain ⟨h, st, hi, rfl⟩ | ⟨hheader | ⟨c, rfl⟩ | ⟨c, rfl⟩, rfl, rfl⟩ := hi
  · obtain ⟨hexec, rfl⟩ := exec_of_audioForms hi s
    exact ⟨_, hexec, audioBody_elementFrame st h s⟩
  · obtain ⟨⟨m, q, r, n, cs⟩, hheader⟩ := Option.isSome_iff_exists.1 hheader
    exact ⟨_, exec_of_headerOf hheader s, predictorBody_elementFrame m q r n cs s⟩
  · exact ⟨_, exec_residualOf c s, residualBody_elementFrame c s⟩
  · exact ⟨_, rfl, zeroRunBody_elementFrame c s⟩

/-- The state after an element whose output is written (R256). -/
def State.elementDone (u : State) (m : Memory) : State :=
  ((u.setMem m).setParser { u.parser with ci := u.parser.ci + u.nch, state := .fetchTag }).goto .element .c0

/-- The next states of such an instruction: after an error, inside the element, or after it. -/
theorem Res.ElementFrame.next {s t : State} {n : Word} {nch : Nat} {r : Res Unit} (h : r.ElementFrame s n nch)
    (ht : r.outcome = .next t) :
    (∃ (e : ErrKind) (u : State), u.outside = s.outside ∧ t = u.raiseError e) ∨ (t.outside = s.outside ∧ t.InElement) ∨
      ∃ (u : State) (m : Memory), u.outside = s.outside ∧ u.parser.n = n ∧ u.nch = nch ∧ u.parser.ci = s.parser.ci ∧
        s.mem.writeAll u.elementBytes = some m ∧ t = u.elementDone m := by
  obtain (rfl | ⟨e, u, rfl, hu⟩) | ⟨t', rfl, ht', hin⟩ | ⟨u, rfl, hu, hn, hnch, hci⟩ := h
  · cases ht
  · cases ht
    exact .inl ⟨e, u, hu, rfl⟩
  · cases ht
    exact .inr (.inl ⟨ht', hin⟩)
  · obtain ⟨hstuck, -⟩ | ⟨m, hm, hok⟩ := finishElement_cases u
    · rw [hstuck] at ht
      cases ht
    · rw [hok] at ht
      cases ht
      obtain ⟨-, -, hmem, -⟩ := State.outside_eq_iff.1 hu
      rw [hmem] at hm
      exact .inr (.inr ⟨u, m, hu, hn, hnch, hci, hm, rfl⟩)

/-! ### The addresses of an element's samples -/

theorem State.bps_congr {s u : State} (h : u.outside = s.outside) : u.bps = s.bps := by
  obtain ⟨hcfg, -⟩ := State.outside_eq_iff.1 h
  rw [State.bps, State.bps, hcfg]

theorem State.sampleAddr_congr {s u : State} (h : u.outside = s.outside) (j c : Nat) :
    u.sampleAddr j c = s.sampleAddr j c := by
  obtain ⟨hcfg, hport, -⟩ := State.outside_eq_iff.1 h
  rw [State.sampleAddr, State.sampleAddr, State.slot, State.slot, State.bps_congr h, hcfg, hport]

theorem State.mem_elementBytes {u : State} {w : Word × Byte} (h : w ∈ u.elementBytes) :
    ∃ j < u.parser.n.toNat, ∃ ch < u.nch, ∃ k < u.bps, w.1 = u.sampleAddr j (u.parser.ci + ch) + BitVec.ofNat 32 k := by
  obtain ⟨j, hj, hw⟩ := List.mem_flatMap.1 h
  exact ⟨j, List.mem_range.1 hj, State.mem_frameBytes hw⟩

/-- The port after an error (R284). -/
theorem State.raiseError_port_of_outside {s u : State} (h : u.outside = s.outside) (e : ErrKind) :
    (u.raiseError e).port =
      { s.port with busy := false, done := true, err := (u.raiseError e).port.err,
                    outLen := if s.op = 1#4 then 0#32 else s.port.outLen } := by
  obtain ⟨-, hport, -⟩ := State.outside_eq_iff.1 h
  rw [State.raiseError_port, State.op, State.op, hport]

/-! ### The decoder registers an element leaves -/

/-- A next state in which something is still to be read comes of an operation that ran. -/
theorem Res.ok_of_next {r : Res Unit} {t : State} (ht : r.outcome = .next t) (hstage : t.stage ≠ .idle) :
    r = .ok () t := by
  obtain hok | ⟨e, u, -, rfl⟩ := Res.outcome_eq_next.1 ht
  · exact hok
  · exact absurd rfl hstage

theorem finishElement_eq_ok {u t : State} (h : finishElement u = .ok () t) : ∃ m, t = u.elementDone m := by
  obtain ⟨hstuck, -⟩ | ⟨m, -, hok⟩ := finishElement_cases u
  · rw [hstuck] at h
    cases h
  · rw [hok] at h
    cases h
    exact ⟨m, rfl⟩

/-- The parser registers no codeword writes: all but `STATE` and `CI`. -/
def Parser.fixed (p : Parser) : Parser := { p with state := .halt, ci := 0 }

/-- The channel registers no codeword writes: all but residuals, samples and coefficients. -/
def ChanRegs.fixed (r : ChanRegs) : ChanRegs := { r with res := [], smp := [], coef := [] }

/-- What a codeword at s leaves in t: the cursor, the parser registers and channel registers it does not write, channel 0 once it
is done, and channel 1 of a mono element. -/
structure RunFrame (s t : State) : Prop where
  parser : t.parser.fixed = s.parser.fixed
  cursor : t.cursor = s.cursor
  ch0 : t.ch0.fixed = s.ch0.fixed
  ch1 : t.ch1.fixed = s.ch1.fixed
  second : s.chan = .c1 → t.ch0 = s.ch0
  mono : s.chan = .c0 → s.nch = 1 → t.ch1 = s.ch1

theorem RunFrame.trans {s s' t : State} (h : RunFrame s s') (h' : RunFrame s' t) (hchan : s'.chan = s.chan)
    (hnch : s'.nch = s.nch) : RunFrame s t where
  parser := h'.parser.trans h.parser
  cursor := h'.cursor.trans h.cursor
  ch0 := h'.ch0.trans h.ch0
  ch1 := h'.ch1.trans h.ch1
  second hc := (h'.second (hchan.trans hc)).trans (h.second hc)
  mono hc hn := (h'.mono (hchan.trans hc) (hnch.trans hn)).trans (h.mono hc hn)

/-- Storing values in the channel of the run. -/
theorem RunFrame.stored (s : State) (l : List Word) (rice : Rice) : RunFrame s ((s.pushRes l).setRice rice) := by
  cases hchan : s.chan with
  | c0 =>
    constructor <;> simp [State.pushRes, hchan, ChanRegs.fixed]
  | c1 =>
    constructor <;> simp [State.pushRes, hchan, ChanRegs.fixed]

/-- The prediction of the channel of the run. -/
theorem RunFrame.predicted {s : State} {cb : Nat} {r : ChanRegs} (hr : reconstructChan cb (s.ch s.chan) = some r) :
    RunFrame s (s.setCh s.chan r) := by
  obtain ⟨hfixed, -⟩ := reconstructChan_keeps hr
  have hregs : r.fixed = (s.ch s.chan).fixed := by
    rw [hfixed]
    rfl
  cases hchan : s.chan with
  | c0 =>
    rw [hchan, State.ch_c0] at hregs
    constructor <;> simp [hchan, hregs]
  | c1 =>
    rw [hchan, State.ch_c1] at hregs
    constructor <;> simp [hchan, hregs]

theorem RunFrame.elementDone (s : State) (m : Memory) : RunFrame s (s.elementDone m) :=
  ⟨rfl, rfl, rfl, rfl, fun _ => rfl, fun _ _ => rfl⟩

theorem RunFrame.secondRun {s : State} (hchan : s.chan = .c0) (hnch : s.nch = 2) : RunFrame s (s.initRun .c1) :=
  ⟨rfl, rfl, rfl, rfl, by simp [hchan], by simp [hnch]⟩

theorem ChannelEnds.runFrame {s t : State} {r : Res Unit} (h : ChannelEnds s r) (ht : r = .ok () t) : RunFrame s t := by
  cases h with
  | fails h =>
    subst ht
    obtain h | ⟨e, u, h, -⟩ := h <;> cases h
  | second r hchan hnch hn hr =>
    cases ht
    have hfirst : RunFrame s (s.setCh .c0 r) := by
      have := RunFrame.predicted (s := s) (by rw [hchan]; exact hr)
      rwa [hchan] at this
    exact hfirst.trans (.secondRun hchan ((State.setCh_nch _ _ _).trans hnch)) (State.setCh_chan _ _ _)
      (State.setCh_nch _ _ _)
  | finish r hlast hr =>
    obtain ⟨m, rfl⟩ := finishElement_eq_ok ht
    exact (RunFrame.predicted hr).trans (.elementDone _ m) (State.setCh_chan _ _ _) (State.setCh_nch _ _ _)
  | empty r r' hchan hnch hn hr hr' =>
    obtain ⟨m, rfl⟩ := finishElement_eq_ok ht
    obtain ⟨hfixed, -⟩ := reconstructChan_keeps hr
    obtain ⟨hfixed', -⟩ := reconstructChan_keeps hr'
    constructor
    · rfl
    · rfl
    · change r.fixed = _
      rw [hfixed]
      rfl
    · change r'.fixed = _
      rw [hfixed']
      rfl
    · simp [hchan]
    · simp [hnch]

theorem RunGoesOn.runFrame {s t : State} {g : Stage} {r : Res Unit} (h : RunGoesOn s g r) (ht : r = .ok () t) :
    RunFrame s t := by
  obtain ⟨-, hr⟩ | hends := h
  · rw [hr] at ht
    cases ht
    exact ⟨rfl, rfl, rfl, rfl, fun _ => rfl, fun _ _ => rfl⟩
  · exact hends.runFrame ht

theorem codeword_runFrame {i : Instr} {s t : State} (hi : (∃ c, i = residualOf c) ∨ ∃ c, i = .zeroRun c)
    (h : exec i s = .next t) (hstage : t.stage ≠ .idle) : RunFrame s t := by
  have hstored {l : List Word} {rice : Rice} {g : Stage} {r : Res Unit}
      (hrun : RunGoesOn ((s.pushRes l).setRice rice) g r) (hr : r.outcome = .next t) : RunFrame s t :=
    (RunFrame.stored s l rice).trans (hrun.runFrame (Res.ok_of_next hr hstage)) (State.setCh_chan _ _ _)
      (State.setCh_nch _ _ _)
  obtain ⟨c, rfl⟩ | ⟨c, rfl⟩ := hi
  · obtain ⟨v, rice, g, -, -, hrun⟩ := residualBody_goesOn c s
    exact hstored hrun ((exec_residualOf c s).symm.trans h)
  · change (zeroRunBody c s).outcome = _ at h
    obtain hover | ⟨z, rice, -, hrun⟩ := zeroRunBody_goesOn c s
    · rw [hover] at h
      cases h
      exact absurd rfl hstage
    · exact hstored hrun h

theorem audioBody_registers {st : ParserState} {hd : AudioHeader} {s t : State} (h : audioBody st hd s = .ok () t) :
    t.rice = s.rice ∧ t.ch0 = { s.ch0 with smp := t.ch0.smp } ∧ t.ch1 = { s.ch1 with smp := t.ch1.smp } := by
  obtain (hfail | ⟨e, u, hfail, -⟩) | ⟨-, ⟨l, c, -, hr⟩ | ⟨-, -, -, shift, weight, c, -, hr⟩⟩ := audioBody_cases st hd s
  · rw [hfail] at h
    cases h
  · rw [hfail] at h
    cases h
  · obtain ⟨m, rfl⟩ := finishElement_eq_ok (hr.symm.trans h)
    unfold State.storeSamples
    split <;> exact ⟨rfl, rfl, rfl⟩
  · rw [hr] at h
    cases h
    exact ⟨rfl, rfl, rfl⟩

/-! ### What an instruction can leave, over all instructions -/

/-- The instruction ends an element, in u: an audio element within the sample count and the channels of the configuration, or a
predictor header or codeword, which leave the element's count and channels. -/
def EndsElement (i : Instr) (s u : State) : Prop :=
  ((∃ h st nch, (i, st, nch) ∈ audioForms h) ∧ u.parser.n.toNat ≤ s.cfg.maxSamples.toNat ∧
      u.parser.ci + u.nch ≤ s.cfg.numCh.toNat) ∨
    (((headerOf i).isSome = true ∨ (∃ c, i = residualOf c) ∨ ∃ c, i = .zeroRun c) ∧ u.parser.n = s.parser.n ∧
      u.nch = s.nch ∧ u.parser.ci = s.parser.ci)

/-- The next states of an instruction at s. -/
inductive Effect (i : Instr) (s : State) : State → Prop where
  | error (e : ErrKind) (u : State) (hu : u.outside = s.outside) : Effect i s (u.raiseError e)
  | badCookie (hi : ∃ a b, i = .configure a b) : Effect i s ((s.setCfg .clear).raiseError .invalidConfig)
  | configured (l : List Byte) (hi : ∃ a b, i = .configure a b) (hl : cookieLegal l = true) :
      Effect i s (s.setCfg (cookieCfg l)).dropScratch.endCommand
  | unitTest (c : Cursor) (v : Word) (hresult : HasResult i ∨ v = s.port.dataOut) :
      Effect i s ((s.setCursor c).setDataOut v).endCommand
  | frameStarted (hi : ∃ a b, i = .decode a b) (hready : s.decodeReady = true) : Effect i s s.startFrame
  | frameDone (c : Cursor) : Effect i s (s.frameDone c).endCommand
  | goesOn (t : State) (ht : t.outside = s.outside) (hin : t.InFrame) : Effect i s t
  | elementDone (u : State) (m : Memory) (hi : EndsElement i s u) (hu : u.outside = s.outside)
      (hm : s.mem.writeAll u.elementBytes = some m) : Effect i s (u.elementDone m)

theorem Effect.inElement {i : Instr} {s t : State} (ht : t.outside = s.outside) (hin : t.InElement) : Effect i s t := by
  refine .goesOn t ht ?_
  obtain hstage | hstage | hstage := hin <;> simp [State.InFrame, hstage]

/-- A predictor header or a codeword. -/
theorem Effect.of_elementFrame {i : Instr} {s t : State}
    (hi : (headerOf i).isSome = true ∨ (∃ c, i = residualOf c) ∨ ∃ c, i = .zeroRun c) (ht : exec i s = .next t) :
    Effect i s t := by
  obtain ⟨r, hr, hframe⟩ := exec_elementFrame (s := s) (.inr ⟨hi, rfl, rfl⟩)
  obtain ⟨e, u, hu, rfl⟩ | ⟨ht, hin⟩ | ⟨u, m, hu, hn, hnch, hci, hm, rfl⟩ := hframe.next (hr.symm.trans ht)
  · exact .error e u hu
  · exact .inElement ht hin
  · exact .elementDone u m (.inr ⟨hi, hn, hnch, hci⟩) hu hm

/-- An audio element. -/
theorem Effect.of_audio {i : Instr} {s t : State} {h : AudioHeader} {st : ParserState} {nch : Nat}
    (hi : (i, st, nch) ∈ audioForms h) (ht : exec i s = .next t) : Effect i s t := by
  rw [(exec_of_audioForms hi s).1] at ht
  obtain (hr | ⟨e, u, hr, hu⟩) | ⟨⟨hcount, hch⟩, ⟨l, c, -, hr⟩ | ⟨-, -, -, shift, weight, c, -, hr⟩⟩ := audioBody_cases st h s
  · rw [hr] at ht
    cases ht
  · rw [hr] at ht
    cases ht
    exact .error e u hu
  · rw [hr] at ht
    generalize hu : ((s.withHeader st h).unmixed.setCursor c).storeSamples l = u at ht
    have hparser : u.parser = (s.withHeader st h).unmixed.parser := by
      rw [← hu, State.storeSamples_parser]
      rfl
    have hout : u.outside = s.outside := by
      rw [← hu]
      simp
    have hends : EndsElement i s u := by
      refine .inl ⟨⟨h, st, nch, hi⟩, ?_, ?_⟩
      · rw [hparser]
        exact hcount
      · rw [State.nch_congr (s := s.withHeader st h) (by rw [hparser]; rfl), hparser]
        exact hch
    obtain ⟨hstuck, -⟩ | ⟨m, hm, hok⟩ := finishElement_cases u
    · rw [hstuck] at ht
      cases ht
    · rw [hok] at ht
      cases ht
      obtain ⟨-, -, hmem, -⟩ := State.outside_eq_iff.1 hout
      exact .elementDone u m hends hout (hmem ▸ hm)
  · rw [hr] at ht
    cases ht
    exact .inElement rfl (.inl rfl)

theorem Effect.of_cases {i : Instr} {s t : State} {r : Res Unit} {P : Cursor → Prop} {u : Cursor → State}
    (h : r.Fails s ∨ ∃ c, P c ∧ r = .ok () (u c)) (hu : ∀ c, Effect i s (u c)) (ht : r.outcome = .next t) :
    Effect i s t := by
  obtain (rfl | ⟨e, u, rfl, hout⟩) | ⟨c, -, rfl⟩ := h
  · cases ht
  · cases ht
    exact .error e u hout
  · cases ht
    exact hu c

theorem Effect.of_unitTest {i : Instr} {s t : State} (h : UnitTestEnds i s (exec i s)) (ht : exec i s = .next t) :
    Effect i s t := by
  rw [ht] at h
  cases h with
  | error e c => exact .error e _ rfl
  | success c v _ hresult => exact .unitTest c v hresult

theorem exec_effect {i : Instr} {s t : State} (h : exec i s = .next t) : Effect i s t := by
  cases i with
  | configure a b =>
    obtain hc | hc | hc | ⟨l, hl, hc⟩ := exec_configure_cases a b s <;> rw [hc] at h <;> cases h
    · exact .error _ s rfl
    · exact .badCookie ⟨a, b, rfl⟩
    · exact .configured l ⟨a, b, rfl⟩ hl
  | decode a b =>
    by_cases hready : (argsZero a b && s.decodeReady) = true
    · rw [exec_decode_of_ready s hready] at h
      cases h
      exact .frameStarted ⟨a, b, rfl⟩ (Bool.and_eq_true_iff.1 hready).2
    · rw [exec_decode_of_not_ready s hready] at h
      cases h
      exact .error _ s rfl
  | brSeek a b => exact .of_unitTest (exec_unitTest_ends (a := a) (b := b) s (by simp)) h
  | brRead a b => exact .of_unitTest (exec_unitTest_ends (a := a) (b := b) s (by simp)) h
  | brReadBit a b => exact .of_unitTest (exec_unitTest_ends (a := a) (b := b) s (by simp)) h
  | brUnread a b => exact .of_unitTest (exec_unitTest_ends (a := a) (b := b) s (by simp)) h
  | lzc a b => exact .of_unitTest (exec_unitTest_ends (a := a) (b := b) s (by simp)) h
  | riceValue a b => exact .of_unitTest (exec_unitTest_ends (a := a) (b := b) s (by simp)) h
  | reservedOp w => cases h; exact .error _ s rfl
  | cce => cases h; exact .error _ s rfl
  | pce => cases h; exact .error _ s rfl
  | sce hd => exact .of_audio (h := hd) (st := .sce) (nch := 1) (by simp [audioForms]) h
  | cpe hd => exact .of_audio (h := hd) (st := .cpe) (nch := 2) (by simp [audioForms]) h
  | lfe hd => exact .of_audio (h := hd) (st := .sce) (nch := 1) (by simp [audioForms]) h
  | gap cnt ext => exact .of_cases (gapBody_cases cnt ext s) (fun c => .goesOn _ rfl ⟨by simp [State.atTag], by simp [State.atTag]⟩) h
  | fill inst al cnt ext => exact .of_cases (fillBody_cases al cnt ext s) (fun c => .goesOn _ rfl ⟨by simp [State.atTag], by simp [State.atTag]⟩) h
  | endElement => exact .of_cases (endBody_cases s) .frameDone h
  | predCopy q r => exact .of_elementFrame (.inl rfl) h
  | predFirstDiff q r cs => exact .of_elementFrame (.inl rfl) h
  | predAdaptive q r n cs => exact .of_elementFrame (.inl rfl) h
  | predPrepass m q r n cs => exact .of_elementFrame (.inl rfl) h
  | riceUnary x e => exact .of_elementFrame (.inr (.inl ⟨.unary x e, rfl⟩)) h
  | riceEscape v => exact .of_elementFrame (.inr (.inl ⟨.escape v, rfl⟩)) h
  | zeroRun c => exact .of_elementFrame (.inr (.inr ⟨c, rfl⟩)) h

/-- The registers of the port that no instruction writes: all but `BUSY`, `DONE`, `ERR`, `OUT_LEN` and `DATA_OUT`. -/
def Port.hostOwned (p : Port) : Port :=
  { p with busy := false, done := false, err := 0#4, outLen := 0#32, dataOut := 0#32 }

/-- What no instruction writes, and `DATA_OUT` and the configuration where this one does not. -/
structure Effect.Keeps (i : Instr) (s t : State) : Prop where
  cfg : (∀ a b, i ≠ .configure a b) → t.cfg = s.cfg
  dataOut : ¬ HasResult i → t.port.dataOut = s.port.dataOut
  params : t.params = s.params
  host : t.host = s.host
  busData : t.busData = s.busData
  unserved : t.mem.unserved = s.mem.unserved
  port : t.port.hostOwned = s.port.hostOwned

theorem Effect.Keeps.of_outside {i : Instr} {s t : State} (h : t.outside = s.outside) : Effect.Keeps i s t := by
  obtain ⟨hcfg, hport, hmem, hparams, hhost, hbus, -⟩ := State.outside_eq_iff.1 h
  exact ⟨fun _ => hcfg, fun _ => by rw [hport], hparams, hhost, hbus, by rw [hmem], by rw [hport]⟩

theorem Effect.keeps {i : Instr} {s t : State} (h : Effect i s t) : Effect.Keeps i s t := by
  cases h with
  | error e u hu =>
    obtain ⟨hcfg, hdata, hparams, hhost, hbus, hunserved, hport⟩ := Effect.Keeps.of_outside (i := i) hu
    exact ⟨hcfg, hdata, hparams, hhost, hbus, hunserved, hport⟩
  | badCookie hi =>
    obtain ⟨a, b, rfl⟩ := hi
    exact ⟨fun hne => absurd rfl (hne a b), fun _ => rfl, rfl, rfl, rfl, rfl, rfl⟩
  | configured l hi =>
    obtain ⟨a, b, rfl⟩ := hi
    exact ⟨fun hne => absurd rfl (hne a b), fun _ => rfl, rfl, rfl, rfl, rfl, rfl⟩
  | unitTest c v hresult =>
    exact ⟨fun _ => rfl, fun hno => hresult.resolve_left hno, rfl, rfl, rfl, rfl, rfl⟩
  | frameStarted => exact ⟨fun _ => rfl, fun _ => rfl, rfl, rfl, rfl, rfl, rfl⟩
  | frameDone c => exact ⟨fun _ => rfl, fun _ => rfl, rfl, rfl, rfl, rfl, rfl⟩
  | goesOn _ ht => exact .of_outside ht
  | elementDone u m _ hu hm =>
    obtain ⟨hcfg, hdata, hparams, hhost, hbus, -, hport⟩ := Effect.Keeps.of_outside (i := i) hu
    exact ⟨hcfg, hdata, hparams, hhost, hbus, Memory.writeAll_unserved hm, hport⟩

/-- Every instruction is an operation, which has no refusal. -/
theorem exec_eq_outcome (i : Instr) (s : State) : ∃ r : Res Unit, exec i s = r.outcome := by
  cases i with
  | reservedOp w => exact ⟨.raised .hostContract s, rfl⟩
  | cce => exact ⟨.raised .unsupportedElement s, rfl⟩
  | pce => exact ⟨.raised .unsupportedElement s, rfl⟩
  | _ => exact ⟨_, rfl⟩

theorem ErrKind.code_le_five (e : ErrKind) : e.code.toNat ≤ 5 := by
  cases e <;> decide

end Sys2Proof.Machine

namespace Sys2Proof.Proofs
open Sys2Proof.Machine

/-- Settles O58: such an instruction fails or stays in the element, with nothing written, or it ends the element, whose writes
are at the addresses of its samples. -/
theorem elementMemoryFrame : Obligations.ElementMemoryFrame := by
  intro i s t n nch hi hexec
  obtain ⟨r, hr, hframe⟩ := exec_elementFrame hi
  obtain ⟨e, u, hu, rfl⟩ | ⟨ht, hin⟩ | ⟨u, m, hu, rfl, rfl, hci, hm, rfl⟩ := hframe.next (hr.symm.trans hexec)
  · obtain ⟨hcfg, -, hmem, hparams, -⟩ := State.outside_eq_iff.1 hu
    have hread (a : Word) : (u.raiseError e).mem.read a = s.mem.read a := by rw [State.raiseError_mem, hmem]
    exact ⟨fun a _ => hread a, fun _ => hread, hcfg, hparams, absurd rfl,
      fun _ => State.raiseError_port_of_outside hu e⟩
  · obtain ⟨hcfg, hport, hmem, hparams, -⟩ := State.outside_eq_iff.1 ht
    have hread (a : Word) : t.mem.read a = s.mem.read a := by rw [hmem]
    refine ⟨fun a _ => hread a, fun _ => hread, hcfg, hparams, fun _ => hport, fun hidle => ?_⟩
    simp [State.InElement, hidle] at hin
  · obtain ⟨hcfg, hport, -, hparams, -⟩ := State.outside_eq_iff.1 hu
    refine ⟨fun a ha => Memory.read_writeAll_other hm fun w hw hwa => ?_, absurd rfl, hcfg, hparams, fun _ => hport,
      fun hidle => by cases hidle⟩
    obtain ⟨j, hj, ch, hch, k, hk, haddr⟩ := State.mem_elementBytes hw
    rw [State.bps_congr hu] at hk
    rw [hwa, State.sampleAddr_congr hu, hci] at haddr
    exact ha j hj ch hch k hk haddr

/-- Settles O59: an audio element stores samples only; a codeword stores in its channel, predicts it, and at the most begins the
run of channel 1. -/
theorem decoderRegisterFrame : Obligations.DecoderRegisterFrame := by
  intro i s t hexec hstage
  refine ⟨fun ⟨h, st, nch, hi⟩ => ?_, fun hi => ?_⟩
  · exact audioBody_registers (Res.ok_of_next ((exec_of_audioForms hi s).1.symm.trans hexec) hstage)
  · obtain ⟨hparser, hcursor, hch0, hch1, hsecond, hmono⟩ := codeword_runFrame hi hexec hstage
    have hchan {r r' : ChanRegs} (h : r'.fixed = r.fixed) :
        r' = { r with res := r'.res, smp := r'.smp, coef := r'.coef } := by
      cases r
      cases r'
      simpa [ChanRegs.fixed] using h
    refine ⟨?_, hcursor, hchan hch0, hchan hch1, hsecond, hmono⟩
    revert hparser
    generalize t.parser = p'
    generalize s.parser = p
    cases p
    cases p'
    simp [Parser.fixed]

/-- Settles O10: each of the next states of an instruction keeps what is named. -/
theorem whoWritesWhat : Obligations.WhoWritesWhat := by
  intro i s t hexec
  obtain ⟨hcfg, hdata, hparams, hhost, hbus, hunserved, hport⟩ := (exec_effect hexec).keeps
  refine ⟨hcfg, fun h1 h2 h3 h4 => hdata ?_, hparams, hhost, hbus, hunserved, ?_⟩
  · rintro ⟨a, b, h | h | h | h⟩
    · exact h1 a b h
    · exact h2 a b h
    · exact h3 a b h
    · exact h4 a b h
  · simpa [Port.hostOwned] using hport

/-- Settles O11: an instruction that ends its command raised an error or ended in success; any other leaves the flags. -/
theorem commandEndIsReported : Obligations.CommandEndIsReported := by
  intro i s
  refine ⟨fun r hr => ?_, fun t hexec => ?_⟩
  · obtain ⟨res, hres⟩ := exec_eq_outcome i s
    exact Res.outcome_ne_refused res r (hres.symm.trans hr)
  have hsame {t : State} (ht : t.outside = s.outside) :
      t.port.busy = s.port.busy ∧ t.port.done = s.port.done ∧ t.port.err = s.port.err := by
    obtain ⟨-, hport, -⟩ := State.outside_eq_iff.1 ht
    exact ⟨by rw [hport], by rw [hport], by rw [hport]⟩
  cases exec_effect hexec with
  | error e u hu =>
    obtain ⟨-, hport, -⟩ := State.outside_eq_iff.1 hu
    refine ⟨fun _ => ⟨rfl, rfl, e.code_le_five, fun _ hop => ?_⟩, absurd rfl⟩
    rw [State.op, ← hport] at hop
    exact if_pos hop
  | badCookie => exact ⟨fun _ => ⟨rfl, rfl, ErrKind.code_le_five .invalidConfig, fun _ hop => if_pos hop⟩, absurd rfl⟩
  | configured l => exact ⟨fun _ => ⟨rfl, rfl, Nat.zero_le 5, absurd rfl⟩, absurd rfl⟩
  | unitTest c v => exact ⟨fun _ => ⟨rfl, rfl, Nat.zero_le 5, absurd rfl⟩, absurd rfl⟩
  | frameStarted => exact ⟨(nomatch ·), fun _ => ⟨rfl, rfl, rfl⟩⟩
  | frameDone c => exact ⟨fun _ => ⟨rfl, rfl, Nat.zero_le 5, absurd rfl⟩, absurd rfl⟩
  | goesOn _ ht hin => exact ⟨fun h => absurd h hin.1, fun _ => hsame ht⟩
  | elementDone u m _ hu => exact ⟨(nomatch ·), fun _ => hsame (t := u) hu⟩

end Sys2Proof.Proofs
end

section
/-! The invariant (State.Inv) taken apart by what the core is doing, and kept by every operation, instruction and step. -/

namespace Sys2Proof.Machine

/-! ### How far a fetch moves the cursor (R260) -/

theorem State.Inside.pos_mod {s : State} (h : s.Inside) : s.pos % 2 ^ 35 = s.pos :=
  Nat.mod_eq_of_lt (h.pos_lt.trans (by decide))

/-- A read that succeeds moves the cursor by its bits; positions are those of the registers, below 2^35. -/
theorem checkEnd_cursorAt_pos {s t : State} {p : Nat} {a : Unit} (h : checkEnd (s.cursorAt p) = .ok a t) :
    t.pos = p % 2 ^ 35 := by
  obtain hraised | ⟨hok, -⟩ := checkEnd_cases (s.cursorAt p)
  · rw [hraised] at h
    cases h
  · rw [hok] at h
    cases h
    exact s.cursorAt_pos_mod p

theorem advance_pos {n : Nat} {s t : State} {a : Unit} (h : advance n s = .ok a t) : t.pos = (s.pos + n) % 2 ^ 35 := by
  rw [advance_eq] at h
  exact checkEnd_cursorAt_pos h

theorem read16_pos {n : Nat} {s t : State} {v : Word} (h : read16 n s = .ok v t) : t.pos = (s.pos + n) % 2 ^ 35 := by
  unfold read16 at h
  split at h
  · obtain ⟨a, u, hadv, hu⟩ := Res.bind_eq_ok.1 h
    cases hu
    exact advance_pos hadv
  · cases h

theorem readBits_pos {n : Nat} {s t : State} {v : Word} (h : readBits n s = .ok v t) :
    t.pos = (s.pos + n) % 2 ^ 35 := by
  unfold readBits at h
  split at h
  · exact read16_pos h
  · obtain ⟨hi, u, hhi, h⟩ := Res.bind_eq_ok.1 h
    obtain ⟨lo, u', hlo, hu⟩ := Res.bind_eq_ok.1 h
    cases hu
    have h1 := read16_pos hhi
    have h2 := read16_pos hlo
    omega

theorem readBit_pos {s t : State} {b : Bool} (h : readBit s = .ok b t) : t.pos = (s.pos + 1) % 2 ^ 35 := by
  unfold readBit at h
  split at h
  · obtain ⟨a, u, hadv, hu⟩ := Res.bind_eq_ok.1 h
    cases hu
    exact advance_pos hadv
  · cases h

theorem unreadBits_pos {n : Nat} {s t : State} {a : Unit} (h : unreadBits n s = .ok a t) : t.pos + n = s.pos := by
  have hlt := s.pos_lt
  obtain ⟨-, hraised⟩ | ⟨-, hn, hok⟩ := unreadBits_cases n s
  · rw [hraised] at h
    cases h
  · rw [hok] at h
    cases h
    rw [State.cursorAt_pos _ (by omega)]
    omega

/-- A plan followed by the BitReader ends as it does on a list of bits, with the cursor as many bits further on. -/
theorem fetchFields_ends {α : Type} {P : α → Nat → Prop} {f : Fields α} {m p : Nat} (hf : f.Ends P m) {s t : State} {a : α}
    (hs : s.pos = (p + m) % 2 ^ 35) (h : fetchFields f s = .ok a t) : ∃ j, P a j ∧ t.pos = (p + j) % 2 ^ 35 := by
  induction f generalizing m s with
  | done b =>
    cases h
    exact ⟨m, hf, hs⟩
  | field n k ih =>
    obtain ⟨v, u, hread, h⟩ := Res.bind_eq_ok.1 h
    refine ih _ (hf _) ?_ h
    have := readBits_pos hread
    omega
  | bit k ih =>
    obtain ⟨b, u, hread, h⟩ := Res.bind_eq_ok.1 h
    refine ih _ (hf b) ?_ h
    have := readBit_pos hread
    omega
  | back f ih =>
    obtain ⟨b, u, hread, h⟩ := Res.bind_eq_ok.1 h
    obtain ⟨hm, hf⟩ := hf
    refine ih hf ?_ h
    have := unreadBits_pos hread
    have := s.pos_lt
    omega

/-- What a fetch from the stream answers: an instruction of the form, with the cursor after its bits and inside the input. -/
theorem fetchFields_gives {f : Form} {s t : State} {i : Instr} (h : fetchFields (formFields f) s = .ok i t) :
    ∃ j c, f.Gives i j ∧ t = s.setCursor c ∧ t.pos = (s.pos + j) % 2 ^ 35 ∧ (s.Inside → t.Inside) := by
  obtain ⟨j, hj, hpos⟩ := fetchFields_ends (p := s.pos) (formFields_ends f) (Nat.mod_eq_of_lt s.pos_lt).symm h
  have hmoves := fetchFields_moves (formFields f) s
  rw [h] at hmoves
  obtain ⟨c, ht, hin⟩ := hmoves
  exact ⟨j, c, hj, ht, hpos, hin⟩

/-! ### The invariant by what the core is doing -/

/-- What the invariant says in every state: the host memory, the configuration, the tables and the codes. -/
structure State.Base (s : State) : Prop where
  mem : s.mem.wf
  cfg : s.cfg.Legal
  coef0 : CoefsLegal s.ch0.coef
  coef1 : CoefsLegal s.ch1.coef
  err : s.port.err.toNat ≤ 5
  signMod : s.rice.signMod.toNat ≤ 1

theorem State.Inv.base {s : State} (h : s.Inv) : s.Base := ⟨h.mem, h.cfg, h.coef0, h.coef1, h.err, h.signMod⟩

/-- The invariant of a core with nothing to do. -/
theorem State.Inv.of_idle {s : State} (h : s.Base) (hstage : s.stage = .idle) (hbusy : s.port.busy = false)
    (hhalt : s.parser.state = .halt) : s.Inv where
  mem := h.mem
  cfg := h.cfg
  coef0 := h.coef0
  coef1 := h.coef1
  busy := by simp [hstage, hbusy]
  notDone := by simp [hbusy]
  apart := by simp [hbusy]
  err := h.err
  signMod := h.signMod
  parser := by rw [hstage, hhalt]; rfl
  frame := fun hin => absurd hstage hin.1
  element := by simp [hstage]
  run := by simp [hstage]

/-- The invariant of a core that is about to run a command word. -/
theorem State.Inv.of_command {s : State} (h : s.Base) (hstage : s.stage = .command) (hbusy : s.port.busy = true)
    (hdone : s.port.done = false) (hapart : s.buffersOverlap = false) (hhalt : s.parser.state = .halt) : s.Inv where
  mem := h.mem
  cfg := h.cfg
  coef0 := h.coef0
  coef1 := h.coef1
  busy := by simp [hstage, hbusy]
  notDone := fun _ => hdone
  apart := fun _ => hapart
  err := h.err
  signMod := h.signMod
  parser := by rw [hstage, hhalt]; rfl
  frame := fun hin => absurd hstage hin.2
  element := by simp [hstage]
  run := by simp [hstage]

/-- What the invariant says wherever the parser is in a frame. -/
structure State.Running (s : State) : Prop extends s.Base where
  busy : s.port.busy = true
  done : s.port.done = false
  apart : s.buffersOverlap = false
  frame : s.FrameInv

theorem State.Inv.running {s : State} (h : s.Inv) (hin : s.InFrame) : s.Running :=
  have hbusy := h.busy.2 hin.1
  ⟨h.base, hbusy, h.notDone hbusy, h.apart hbusy, h.frame hin⟩

/-- The invariant at a tag. -/
theorem State.Inv.of_tag {s : State} (h : s.Running) (hstage : s.stage = .element) (hstate : s.parser.state = .fetchTag) :
    s.Inv where
  mem := h.mem
  cfg := h.cfg
  coef0 := h.coef0
  coef1 := h.coef1
  busy := by simp [hstage, h.busy]
  notDone := fun _ => h.done
  apart := fun _ => h.apart
  err := h.err
  signMod := h.signMod
  parser := by rw [hstage, hstate]; rfl
  frame := fun _ => h.frame
  element := by simp [hstage]
  run := by simp [hstage]

/-- What the invariant says wherever the parser is in a compressed element, but for the run. -/
structure State.RunningElement (s : State) : Prop extends s.Running where
  audio : s.parser.state = .sce ∨ s.parser.state = .cpe
  element : s.ElementInv

theorem State.Inv.runningElement {s : State} (h : s.Inv) (hin : s.InElement) : s.RunningElement := by
  refine ⟨h.running ?_, ?_, h.element hin⟩
  · obtain hstage | hstage | hstage := hin <;> simp [State.InFrame, hstage]
  · have hfits := h.parser
    obtain hstage | hstage | hstage := hin <;> rw [hstage] at hfits <;> simpa [ParserState.fits] using hfits

/-- The invariant in a compressed element: in a run a value is still to be stored. -/
theorem State.Inv.of_element {s : State} (h : s.RunningElement) (hin : s.InElement)
    (hrun : s.stage = .residual ∨ s.stage = .zeroRun → (s.ch s.chan).res.length < s.parser.n.toNat) : s.Inv where
  mem := h.mem
  cfg := h.cfg
  coef0 := h.coef0
  coef1 := h.coef1
  busy := by obtain hstage | hstage | hstage := hin <;> simp [hstage, h.busy]
  notDone := fun _ => h.done
  apart := fun _ => h.apart
  err := h.err
  signMod := h.signMod
  parser := by
    obtain hstage | hstage | hstage := hin <;> obtain hstate | hstate := h.audio <;> rw [hstage, hstate] <;> rfl
  frame := fun _ => h.frame
  element := fun _ => h.element
  run := hrun

/-! ### The ends of a command -/

theorem coefsLegal_freeCoefs (d : Nat) : CoefsLegal (freeCoefs d) := by
  refine ⟨by simp [freeCoefs], fun c hc => ?_⟩
  obtain ⟨j, -, rfl⟩ := List.mem_map.1 hc
  have hrange := sext_range (n := 16) (by decide) (by decide) (Config.freeWord (d + j))
  norm_num at hrange
  omega

/-- After an error (R284, R285). -/
theorem State.Inv.of_error {s : State} (hmem : s.mem.wf) (hcfg : s.cfg.Legal) (e : ErrKind) : (s.raiseError e).Inv := by
  refine .of_idle ⟨hmem, hcfg, coefsLegal_freeCoefs _, coefsLegal_freeCoefs _, e.code_le_five, ?_⟩ rfl rfl rfl
  change (Config.freeWord (s.draws + 1) &&& 1#32).toNat ≤ 1
  rw [BitVec.toNat_and]
  exact Nat.and_le_right

/-- After a success. -/
theorem State.Inv.of_success {s : State} (hmem : s.mem.wf) (hcfg : s.cfg.Legal) (hcoef0 : CoefsLegal s.ch0.coef)
    (hcoef1 : CoefsLegal s.ch1.coef) (hsign : s.rice.signMod.toNat ≤ 1) (hhalt : s.parser.state = .halt) :
    s.endCommand.Inv :=
  .of_idle ⟨hmem, hcfg, hcoef0, hcoef1, Nat.zero_le 5, hsign⟩ rfl rfl hhalt

/-- An operation that fails ends its command by an error. -/
theorem Res.Fails.inv {s t : State} {r : Res Unit} (h : r.Fails s) (hs : s.Base) (ht : r.outcome = .next t) : t.Inv := by
  obtain rfl | ⟨e, u, rfl, hu⟩ := h
  · cases ht
  · obtain ⟨hcfg, -, hmem, -⟩ := State.outside_eq_iff.1 hu
    cases ht
    exact .of_error (hmem ▸ hs.mem) (hcfg ▸ hs.cfg) e

/-! ### What the operations of a frame keep -/

namespace State.Running

variable {s : State}

theorem setCursor (h : s.Running) {c : Cursor} (hc : (s.setCursor c).Inside) : (s.setCursor c).Running :=
  ⟨⟨h.mem, h.cfg, h.coef0, h.coef1, h.err, h.signMod⟩, h.busy, h.done, h.apart,
    ⟨h.frame.op, h.frame.ready, hc.1, hc.2, h.frame.channels, h.frame.hwm⟩⟩

theorem inside (h : s.Running) : s.Inside := ⟨h.frame.inside, h.frame.positive⟩

theorem ahead (h : s.Running) {c : Cursor} (hc : s.Ahead c) : (s.setCursor c).Running := h.setCursor (hc h.inside).1

theorem setParser (h : s.Running) {p : Parser} (hci : p.ci ≤ s.cfg.numCh.toNat)
    (hhwm : p.hwm.toNat ≤ s.frameBytesMax.toNat) : (s.setParser p).Running :=
  ⟨⟨h.mem, h.cfg, h.coef0, h.coef1, h.err, h.signMod⟩, h.busy, h.done, h.apart,
    ⟨h.frame.op, h.frame.ready, h.frame.inside, h.frame.positive, hci, hhwm⟩⟩

theorem setRice (h : s.Running) {r : Rice} (hsign : r.signMod.toNat ≤ 1) : (s.setRice r).Running :=
  ⟨⟨h.mem, h.cfg, h.coef0, h.coef1, h.err, hsign⟩, h.busy, h.done, h.apart,
    ⟨h.frame.op, h.frame.ready, h.frame.inside, h.frame.positive, h.frame.channels, h.frame.hwm⟩⟩

theorem setCh (h : s.Running) {c : Ch} {r : ChanRegs} (hr : CoefsLegal r.coef) : (s.setCh c r).Running := by
  cases c with
  | c0 =>
    exact ⟨⟨h.mem, h.cfg, hr, h.coef1, h.err, h.signMod⟩, h.busy, h.done, h.apart,
      ⟨h.frame.op, h.frame.ready, h.frame.inside, h.frame.positive, h.frame.channels, h.frame.hwm⟩⟩
  | c1 =>
    exact ⟨⟨h.mem, h.cfg, h.coef0, hr, h.err, h.signMod⟩, h.busy, h.done, h.apart,
      ⟨h.frame.op, h.frame.ready, h.frame.inside, h.frame.positive, h.frame.channels, h.frame.hwm⟩⟩

theorem setMem (h : s.Running) {m : Memory} (hm : m.wf) : (s.setMem m).Running :=
  ⟨⟨hm, h.cfg, h.coef0, h.coef1, h.err, h.signMod⟩, h.busy, h.done, h.apart,
    ⟨h.frame.op, h.frame.ready, h.frame.inside, h.frame.positive, h.frame.channels, h.frame.hwm⟩⟩

theorem goto (h : s.Running) (g : Stage) (c : Ch) : (s.goto g c).Running :=
  ⟨⟨h.mem, h.cfg, h.coef0, h.coef1, h.err, h.signMod⟩, h.busy, h.done, h.apart,
    ⟨h.frame.op, h.frame.ready, h.frame.inside, h.frame.positive, h.frame.channels, h.frame.hwm⟩⟩

theorem ch_coef (h : s.Running) (c : Ch) : CoefsLegal (s.ch c).coef := by
  cases c with
  | c0 => exact h.coef0
  | c1 => exact h.coef1

theorem storeSamples (h : s.Running) (l : List (Word × Word)) : (s.storeSamples l).Running := by
  unfold State.storeSamples
  split
  · exact (h.setCh (c := .c0) (r := { s.ch0 with smp := l.map (·.1) }) h.coef0).setCh (c := .c1)
      (r := { s.ch1 with smp := l.map (·.2) }) h.coef1
  · exact h.setCh (c := .c0) (r := { s.ch0 with smp := l.map (·.1) }) h.coef0

theorem setLow (h : s.Running) (l0 l1 : List Word) : (s.setLow l0 l1).Running :=
  (h.setCh (c := .c0) (r := { s.ch0 with low := l0 }) h.coef0).setCh (c := .c1) (r := { s.ch1 with low := l1 }) h.coef1

theorem initRun (h : s.Running) (c : Ch) : (s.initRun c).Running :=
  ((h.setRice (r := { s.rice with history := s.cfg.initHist.setWidth 32, signMod := 0#32 }) (Nat.zero_le 1)).setCh
    (c := c) (r := { s.ch c with res := [] }) (h.ch_coef c)).goto _ _

theorem pushRes (h : s.Running) (l : List Word) : (s.pushRes l).Running := h.setCh (h.ch_coef s.chan)

/-- The parser at the next tag. -/
theorem atTag_inv (h : s.Running) {c : Cursor} (hc : s.Ahead c) : (s.atTag c).Inv :=
  .of_tag (((h.setParser (p := { s.parser with state := .fetchTag }) h.frame.channels h.frame.hwm).setCursor (h.ahead hc).inside).goto _ _) rfl rfl

/-- The end of an element whose channels are within the configuration. -/
theorem finishElement_inv (h : s.Running) (hch : s.parser.ci + s.nch ≤ s.cfg.numCh.toNat) {t : State}
    (ht : (finishElement s).outcome = .next t) : t.Inv := by
  obtain ⟨hstuck, -⟩ | ⟨m, hm, hok⟩ := finishElement_cases s
  · rw [hstuck] at ht
    cases ht
  · rw [hok] at ht
    cases ht
    have hdone := (h.setMem (Memory.writeAll_wf h.mem hm)).setParser
      (p := { s.parser with ci := s.parser.ci + s.nch, state := .fetchTag }) hch h.frame.hwm
    exact .of_tag (hdone.goto _ _) rfl rfl

end State.Running

namespace State.RunningElement

variable {s t : State}

/-- Inside an element whose parser registers stay. -/
theorem of_running (h : s.RunningElement) (ht : t.Running) (hcfg : t.cfg = s.cfg) (hparser : t.parser = s.parser)
    (hchan : t.chan = .c1 → t.nch = 2) : t.RunningElement := by
  have hnch : t.nch = s.nch := State.nch_congr (by rw [hparser])
  have hbits : t.chanBits = s.chanBits := by rw [State.chanBits, State.chanBits, hcfg, hparser, hnch]
  obtain ⟨hcount, hch, hkmod, hlow, hhigh, -⟩ := h.element
  refine ⟨ht, by rw [hparser]; exact h.audio, ?_, ?_, ?_, ?_, ?_, hchan⟩
  · rwa [hparser, hcfg]
  · rwa [hparser, hcfg, hnch]
  · rwa [hcfg]
  · rwa [hbits]
  · rwa [hbits]

theorem setCh (h : s.RunningElement) {c : Ch} {r : ChanRegs} (hr : CoefsLegal r.coef) : (s.setCh c r).RunningElement :=
  h.of_running (h.toRunning.setCh hr) (s.setCh_cfg _ _) (s.setCh_parser _ _) (by simpa using h.element.second)

theorem initRun (h : s.RunningElement) {c : Ch} (hc : c = .c1 → s.nch = 2) : (s.initRun c).RunningElement :=
  h.of_running (h.toRunning.initRun c) (by cases c <;> rfl) (s.initRun_parser c) fun hchan =>
    (State.nch_congr (by rw [s.initRun_parser])).trans (hc hchan)

theorem stored (h : s.RunningElement) (l : List Word) {r : Rice} (hsign : r.signMod.toNat ≤ 1) :
    ((s.pushRes l).setRice r).RunningElement :=
  h.of_running ((h.toRunning.pushRes l).setRice hsign) (s.setCh_cfg _ _) (s.setCh_parser _ _) fun hchan =>
    (s.setCh_nch _ _).trans (h.element.second ((s.setCh_chan _ _).symm.trans hchan))

/-- The prediction of a channel keeps its table in range. -/
theorem predicted (h : s.RunningElement) {c : Ch} {r : ChanRegs} (hr : reconstructChan s.chanBits.toNat (s.ch c) = some r) :
    (s.setCh c r).RunningElement :=
  h.setCh ((reconstructChan_keeps hr).2 (h.ch_coef c))

theorem finishElement_inv (h : s.RunningElement) (ht : (finishElement s).outcome = .next t) : t.Inv :=
  h.toRunning.finishElement_inv h.element.channels ht

end State.RunningElement

/-- The end of a channel's run. -/
theorem ChannelEnds.inv {s t : State} {r : Res Unit} (h : ChannelEnds s r) (hs : s.RunningElement)
    (ht : r.outcome = .next t) : t.Inv := by
  cases h with
  | fails h => exact h.inv hs.toBase ht
  | second r hchan hnch hn hr =>
    cases ht
    refine .of_element ((hs.predicted (c := .c0) hr).initRun fun _ => hnch) (.inr (.inl rfl)) fun _ => ?_
    exact Nat.pos_of_ne_zero fun hzero => hn (BitVec.eq_of_toNat_eq hzero)
  | finish r hlast hr => exact (hs.predicted hr).finishElement_inv ht
  | empty r r' hchan hnch hn hr hr' =>
    have hsecond := (hs.predicted (c := .c0) hr).initRun (c := .c1) fun _ => hnch
    exact (hsecond.setCh ((reconstructChan_keeps hr').2 hs.coef1)).finishElement_inv ht

theorem RunGoesOn.inv {s t : State} {g : Stage} {r : Res Unit} (h : RunGoesOn s g r) (hs : s.RunningElement)
    (hg : g = .residual ∨ g = .zeroRun) (ht : r.outcome = .next t) : t.Inv := by
  obtain ⟨hlt, rfl⟩ | hends := h
  · cases ht
    exact .of_element (hs.of_running (hs.goto _ _) rfl rfl hs.element.second) (.inr hg) fun _ => hlt
  · exact hends.inv hs ht

/-! ### The instructions of a frame -/

theorem residualBody_inv {s t : State} (hs : s.RunningElement) (c : Codeword) (ht : (residualBody c s).outcome = .next t) :
    t.Inv := by
  obtain ⟨v, rice, g, hsign, hg, hrun⟩ := residualBody_goesOn c s
  exact hrun.inv (hs.stored [v] (by simp [hsign])) hg ht

theorem zeroRunBody_inv {s t : State} (hs : s.RunningElement) (c : Codeword) (ht : (zeroRunBody c s).outcome = .next t) :
    t.Inv := by
  obtain hover | ⟨z, rice, hsign, hrun⟩ := zeroRunBody_goesOn c s
  · rw [hover] at ht
    cases ht
    exact .of_error hs.mem hs.cfg _
  · exact hrun.inv (hs.stored _ hsign) (.inl rfl) ht

/-- A loaded table: the coefficients of the header, then the rest of the table. -/
theorem coefsLegal_loadCoefs {cs : List (BitVec 16)} {table : List Word} (hlen : cs.length ≤ 32) (h : CoefsLegal table) :
    CoefsLegal (loadCoefs cs table) := by
  obtain ⟨hcount, hin⟩ := h
  refine ⟨by simp [loadCoefs, hcount]; omega, fun c hc => ?_⟩
  obtain hc | hc := List.mem_append.1 hc
  · obtain ⟨x, -, rfl⟩ := List.mem_map.1 hc
    have hlow := x.le_toInt
    have hhigh := x.toInt_lt
    rw [coefOf, BitVec.toInt_signExtend_of_le (by decide)]
    norm_num at hlow hhigh
    omega
  · exact hin c (List.mem_of_mem_drop hc)

theorem predictorBody_inv {s t : State} (hs : s.RunningElement) {m q : BitVec 4} {r : BitVec 3} {n : BitVec 5}
    {cs : List (BitVec 16)} (hlen : cs.length ≤ 32) (ht : (predictorBody m q r n cs s).outcome = .next t) : t.Inv := by
  have hloaded : (s.loaded m q r n cs).RunningElement :=
    hs.setCh (coefsLegal_loadCoefs hlen (hs.ch_coef s.chan))
  obtain ⟨-, hnch, h⟩ | h | ⟨l0, l1, c, hc, hbegins⟩ := predictorBody_cases m q r n cs s
  · rw [h] at ht
    cases ht
    refine .of_element (hloaded.of_running (hloaded.goto _ _) rfl rfl fun _ => ?_) (.inl rfl) (by simp [State.goto])
    exact (State.nch_congr (by simp)).trans hnch
  · exact h.inv hs.toBase ht
  have hbegun : ((((s.loaded m q r n cs).setCursor c).setLow l0 l1).initRun .c0).RunningElement := by
    have hc' : (s.loaded m q r n cs).Ahead c := hc.congr (s.setCh_cursor _ _).symm (s.setCh_port _ _).symm
    refine hloaded.of_running (((hloaded.ahead hc').setLow l0 l1).initRun .c0) rfl ?_ (by simp [State.initRun, State.goto])
    rw [State.initRun_parser]
    rfl
  obtain ⟨hn, h⟩ | ⟨-, hends⟩ := hbegins
  · rw [h] at ht
    cases ht
    refine .of_element hbegun (.inr (.inl rfl)) fun _ => ?_
    change 0 < ((((s.loaded m q r n cs).setCursor c).setLow l0 l1).initRun .c0).parser.n.toNat
    rw [State.initRun_parser]
    change 0 < (s.loaded m q r n cs).parser.n.toNat
    rw [State.loaded_parser]
    exact Nat.pos_of_ne_zero fun hzero => hn (BitVec.eq_of_toNat_eq hzero)
  · exact hends.inv hbegun ht

/-- The number of channels an audio element's parser state stands for. -/
theorem State.withHeader_audio {s : State} {st : ParserState} {h : AudioHeader} (hs : s.Running)
    (hcount : (h.count.getD s.cfg.maxSamples).toNat ≤ s.cfg.maxSamples.toNat) : (s.withHeader st h).Running := by
  refine hs.setParser hs.frame.channels ?_
  have hbytes : (h.count.getD s.cfg.maxSamples * s.frameStride).toNat ≤ s.frameBytesMax.toNat := by
    rw [State.frameBytesMax_toNat hs.cfg, BitVec.toNat_mul, State.frameStride_toNat hs.cfg, ← mul_assoc]
    refine (Nat.mod_le _ _).trans ?_
    gcongr
  change (maxHwm _ _).toNat ≤ _
  unfold maxHwm
  split
  · exact hbytes
  · exact hs.frame.hwm

theorem audioBody_inv {s t : State} (hs : s.Running) {st : ParserState} (hst : st = .sce ∨ st = .cpe) {h : AudioHeader}
    (ht : (audioBody st h s).outcome = .next t) : t.Inv := by
  obtain hfail | ⟨⟨hcount, hch⟩, hbody⟩ := audioBody_cases st h s
  · exact hfail.inv hs.toBase ht
  have hheader : (s.withHeader st h).Running := State.withHeader_audio hs hcount
  obtain ⟨l, c, hc, hr⟩ | ⟨hlow, hhigh, hkmod, shift, weight, c, hc, hr⟩ := hbody
  · rw [hr] at ht
    have hread : ((s.withHeader st h).unmixed.setCursor c).Running :=
      (hheader.setParser (p := (s.withHeader st h).unmixed.parser) hheader.frame.channels hheader.frame.hwm).setCursor
        (hheader.ahead hc).inside
    refine (hread.storeSamples l).finishElement_inv ?_ ht
    rw [State.storeSamples_parser, State.nch_congr (s := s.withHeader st h) (by rw [State.storeSamples_parser]; rfl)]
    unfold State.storeSamples
    split <;> exact hch
  · rw [hr] at ht
    cases ht
    refine .of_element ⟨?_, hst, hcount, hch, hkmod, hlow, hhigh, by simp [State.goto]⟩ (.inl rfl) (by simp [State.goto])
    exact ((hheader.setParser (p := ((s.withHeader st h).withMix shift weight).parser) hheader.frame.channels
      hheader.frame.hwm).setCursor (hheader.ahead hc).inside).goto _ _

/-- The instructions at a tag. -/
theorem exec_element_inv {s t : State} (hs : s.Running) {fd : FilDse} {i : Instr} (hi : i.wf (.element fd) = true)
    (ht : exec i s = .next t) : t.Inv := by
  have hskip {r : Res Unit} (h : r.Fails s ∨ ∃ c, s.Ahead c ∧ r = .ok () (s.atTag c)) (ht : r.outcome = .next t) :
      t.Inv := by
    obtain h | ⟨c, hc, rfl⟩ := h
    · exact h.inv hs.toBase ht
    · cases ht
      exact hs.atTag_inv hc
  cases i with
  | sce h => exact audioBody_inv hs (.inl rfl) ht
  | cpe h => exact audioBody_inv hs (.inr rfl) ht
  | lfe h => exact audioBody_inv hs (.inl rfl) ht
  | cce =>
    cases ht
    exact .of_error hs.mem hs.cfg _
  | pce =>
    cases ht
    exact .of_error hs.mem hs.cfg _
  | gap cnt ext => exact hskip (gapBody_cases cnt ext s) ht
  | fill inst al cnt ext => exact hskip (fillBody_cases al cnt ext s) ht
  | endElement =>
    obtain h | ⟨c, hc, h⟩ := endBody_cases s
    · exact h.inv hs.toBase ht
    · cases (congrArg Res.outcome h).symm.trans ht
      exact .of_success hs.mem hs.cfg hs.coef0 hs.coef1 hs.signMod rfl
  | _ => cases hi

theorem length_le_of_predictor_wf {i : Instr} (hi : i.wf .predictor = true) :
    ∃ m q r n cs, headerOf i = some (m, q, r, n, cs) ∧ cs.length ≤ 32 := by
  cases i with
  | predCopy q r => exact ⟨_, _, _, _, _, rfl, by decide⟩
  | predFirstDiff q r cs =>
    have hlen : cs.length = 31 := by simpa [Instr.wf] using hi
    exact ⟨_, _, _, _, _, rfl, by omega⟩
  | predAdaptive q r n cs =>
    have hlen : (1 ≤ n.toNat ∧ n.toNat ≤ 30) ∧ cs.length = n.toNat := by simpa [Instr.wf] using hi
    exact ⟨_, _, _, _, _, rfl, by omega⟩
  | predPrepass m q r n cs =>
    have hlen : m ≠ 0#4 ∧ cs.length = n.toNat := by simpa [Instr.wf] using hi
    exact ⟨_, _, _, _, _, rfl, by omega⟩
  | _ => cases hi

/-! ### The step of a command word -/

theorem op_of_decodeCommand {w : BitVec 32} {a b : BitVec 6} (h : decodeCommand w = .decode a b) :
    w.extractLsb' 0 4 = 1#4 := by
  unfold decodeCommand at h
  dsimp only at h
  by_cases hone : w.extractLsb' 0 4 = 1#4
  · exact hone
  · rw [if_neg hone] at h
    repeat' split at h
    all_goals cases h

theorem cookieCfg_legal {l : List Byte} (h : cookieLegal l = true) : (cookieCfg l).Legal := by
  obtain ⟨hlow, hhigh, -, hbits, hch⟩ := (cookieLegal_iff l).1 h
  rw [StreamCfg.Legal, if_pos (show (cookieCfg l).configured = true from rfl)]
  exact ⟨hlow, hhigh, (mem_bitDepths_iff _).2 hbits, hch⟩

/-- A unit-test command ends its command. -/
theorem UnitTestEnds.inv {i : Instr} {s t : State} (h : UnitTestEnds i s (.next t)) (hs : s.Base)
    (hhalt : s.parser.state = .halt) : t.Inv := by
  cases h with
  | error e c => exact .of_error (s := s.setCursor c) hs.mem hs.cfg e
  | success c v => exact .of_success hs.mem hs.cfg hs.coef0 hs.coef1 hs.signMod hhalt

/-- The start of a frame (R234): the cursor, `CI` and `HWM` are 0. -/
theorem State.startFrame_running {s : State} (hs : s.Base) (hbusy : s.port.busy = true) (hdone : s.port.done = false)
    (hapart : s.buffersOverlap = false) (hop : s.op = 1#4) (hready : s.decodeReady = true) : s.startFrame.Running :=
  ⟨⟨hs.mem, hs.cfg, hs.coef0, hs.coef1, hs.err, hs.signMod⟩, hbusy, hdone, hapart,
    ⟨hop, hready, Nat.zero_le _, Nat.two_pow_pos 31, Nat.zero_le _, Nat.zero_le _⟩⟩

theorem exec_command_inv {s t : State} (hs : s.Inv) (hstage : s.stage = .command)
    (ht : exec (decodeCommand s.port.cmd) s = .next t) : t.Inv := by
  have hbase := hs.base
  have hhalt : s.parser.state = .halt := by
    have hfits := hs.parser
    rw [hstage] at hfits
    simpa [ParserState.fits] using hfits
  have hunit {i : Instr} {a b : BitVec 6}
      (hi : i ∈ [.brSeek a b, .brRead a b, .brReadBit a b, .brUnread a b, .lzc a b, .riceValue a b])
      (ht : exec i s = .next t) : t.Inv := by
    have hends := exec_unitTest_ends s hi
    rw [ht] at hends
    exact hends.inv hbase hhalt
  have hwf := decodeCommand_wf s.port.cmd
  cases hi : decodeCommand s.port.cmd with
  | configure a b =>
    rw [hi] at ht
    obtain h | h | h | ⟨l, hl, h⟩ := exec_configure_cases a b s
    all_goals rw [h] at ht; cases ht
    · exact .of_error hs.mem hs.cfg _
    · exact .of_error (s := s.setCfg .clear) hs.mem rfl _
    · exact .of_success (s := (s.setCfg (cookieCfg l)).dropScratch) hs.mem (cookieCfg_legal hl) hs.coef0 hs.coef1
        hs.signMod hhalt
  | decode a b =>
    rw [hi] at ht
    by_cases hready : (argsZero a b && s.decodeReady) = true
    · rw [exec_decode_of_ready s hready] at ht
      cases ht
      have hbusy := hs.busy.2 (by rw [hstage]; decide)
      exact .of_tag (State.startFrame_running hbase hbusy (hs.notDone hbusy) (hs.apart hbusy) (op_of_decodeCommand hi)
        (Bool.and_eq_true_iff.1 hready).2) rfl rfl
    · rw [exec_decode_of_not_ready s hready] at ht
      cases ht
      exact .of_error hs.mem hs.cfg _
  | reservedOp w =>
    rw [hi] at ht
    cases ht
    exact .of_error hs.mem hs.cfg _
  | brSeek a b => exact hunit (a := a) (b := b) (by simp) (hi ▸ ht)
  | brRead a b => exact hunit (a := a) (b := b) (by simp) (hi ▸ ht)
  | brReadBit a b => exact hunit (a := a) (b := b) (by simp) (hi ▸ ht)
  | brUnread a b => exact hunit (a := a) (b := b) (by simp) (hi ▸ ht)
  | lzc a b => exact hunit (a := a) (b := b) (by simp) (hi ▸ ht)
  | riceValue a b => exact hunit (a := a) (b := b) (by simp) (hi ▸ ht)
  | _ =>
    rw [hi] at hwf
    cases hwf

/-! ### The step of an instruction of the stream -/

/-- The form that is due is that of the stage. -/
theorem State.form_eq {s : State} {f : Form} (h : s.form = some f) :
    (s.stage = .element ∧ f = .element s.params.filDse) ∨ (s.stage = .predictor ∧ f = .predictor) ∨
      (s.stage = .residual ∧ f = .codeword s.chanBits.toNat s.riceParam.toNat) ∨
      (s.stage = .zeroRun ∧ f = .zeroRun s.riceParam.toNat) := by
  unfold State.form at h
  split at h <;> cases h <;> simp_all

theorem State.form_isSome {s : State} (h : s.InFrame) : ∃ f, s.form = some f := by
  obtain ⟨hidle, hcommand⟩ := h
  unfold State.form
  split
  case h_5 => contradiction
  case h_6 => contradiction
  all_goals exact ⟨_, rfl⟩

/-- A core step that reads the stream raises, or runs the instruction of the form that is due with the cursor after it. -/
theorem coreStep_stream {s t : State} {f : Form} (hf : s.form = some f) (h : coreStep s = .next t) :
    (∃ c, t = (s.setCursor c).raiseError .malformedStream) ∨
      s.badParam = false ∧ ∃ i j c, f.Gives i j ∧ (s.setCursor c).pos = (s.pos + j) % 2 ^ 35 ∧
        (s.Inside → (s.setCursor c).Inside) ∧ exec i (s.setCursor c) = .next t := by
  have hstage : s.stage ≠ .idle := by
    rintro hidle
    simp [State.form, hidle] at hf
  rw [coreStep_running hstage, fetch, hf] at h
  dsimp only at h
  unfold fetchStream at h
  split at h
  · cases h
    exact .inl ⟨s.cursor, rfl⟩
  case isFalse hparam =>
    cases hfetch : fetchFields (formFields f) s with
    | ok i u =>
      rw [hfetch] at h
      obtain ⟨j, c, hj, rfl, hpos, hin⟩ := fetchFields_gives hfetch
      exact .inr ⟨by simpa using hparam, i, j, c, hj, hpos, hin, h⟩
    | raised e u =>
      have hmoves := fetchFields_moves (formFields f) s
      rw [hfetch] at h hmoves
      obtain ⟨rfl, c, rfl⟩ := hmoves
      cases h
      exact .inl ⟨c, rfl⟩
    | stuck r =>
      rw [hfetch] at h
      cases h

theorem exec_stream_inv {s t : State} {f : Form} {i : Instr} {j : Nat} (hf : s.form = some f) (hs : s.Inv) (hi : f.Gives i j)
    {c : Cursor} (hc : (s.setCursor c).Inside) (ht : exec i (s.setCursor c) = .next t) : t.Inv := by
  have helement (hin : s.InElement) : (s.setCursor c).RunningElement :=
    (hs.runningElement hin).of_running ((hs.runningElement hin).setCursor hc) rfl rfl (hs.element hin).second
  obtain ⟨hstage, rfl⟩ | ⟨hstage, rfl⟩ | ⟨hstage, rfl⟩ | ⟨hstage, rfl⟩ := State.form_eq hf
  · exact exec_element_inv ((hs.running (by simp [State.InFrame, hstage])).setCursor hc) hi.1 ht
  · obtain ⟨m, q, r, n, cs, hheader, hlen⟩ := length_le_of_predictor_wf hi.1
    rw [exec_of_headerOf hheader] at ht
    exact predictorBody_inv (helement (.inl hstage)) hlen ht
  · obtain ⟨⟨w, rfl, -⟩, -⟩ := hi
    rw [exec_residualOf] at ht
    exact residualBody_inv (helement (.inr (.inl hstage))) w ht
  · obtain ⟨⟨w, rfl, -⟩, -⟩ := hi
    exact zeroRunBody_inv (helement (.inr (.inr hstage))) w ht

theorem coreStep_inv {s t : State} (hs : s.Inv) (h : coreStep s = .next t) : t.Inv := by
  by_cases hidle : s.stage = .idle
  · rw [coreStep_idle hidle] at h
    cases h
    exact hs
  by_cases hcommand : s.stage = .command
  · rw [coreStep_running hidle, fetch_command hcommand (hs.apart (hs.busy.2 hidle))] at h
    exact exec_command_inv hs hcommand h
  obtain ⟨f, hf⟩ := State.form_isSome ⟨hidle, hcommand⟩
  obtain ⟨c, rfl⟩ | ⟨-, i, j, c, hi, -, hin, h⟩ := coreStep_stream hf h
  · exact .of_error (s := s.setCursor c) hs.mem hs.cfg _
  · exact exec_stream_inv hf hs hi (hin (hs.running ⟨hidle, hcommand⟩).inside) h

/-! ### The host's operations -/

/-- The invariant does not see the host, nor a canonical memory, nor the interrupt, nor `DONE` where it is cleared. -/
theorem State.Inv.hostMoves {s : State} (h : s.Inv) {m : Memory} (hm : m.wf) {done : Bool} (irqEn : Bool)
    (hdone : s.port.done = false → done = false) (l : List HostOp) (v : Word) (d : Nat) :
    ({ s with port := { s.port with done := done, irqEn := irqEn }, mem := m, host := l, busData := v, draws := d } :
      State).Inv where
  mem := hm
  cfg := h.cfg
  coef0 := h.coef0
  coef1 := h.coef1
  busy := h.busy
  notDone := fun hbusy => hdone (h.notDone hbusy)
  apart := h.apart
  err := h.err
  signMod := h.signMod
  parser := h.parser
  frame := fun hin =>
    have hframe := h.frame hin
    ⟨hframe.op, hframe.ready, hframe.inside, hframe.positive, hframe.channels, hframe.hwm⟩
  element := fun hin =>
    have helement := h.element hin
    ⟨helement.count, helement.channels, helement.kmod, helement.bitsLow, helement.bitsHigh, helement.second⟩
  run := h.run

theorem State.Inv.setHost {s : State} (h : s.Inv) (l : List HostOp) : (s.setHost l).Inv :=
  h.hostMoves h.mem s.port.irqEn id l s.busData s.draws

theorem State.Inv.answered {s : State} (h : s.Inv) (v : Word) (d : Nat) : ({ s with busData := v, draws := d } : State).Inv :=
  h.hostMoves h.mem s.port.irqEn id s.host v d

theorem State.Inv.setMem {s : State} (h : s.Inv) {m : Memory} (hm : m.wf) : (s.setMem m).Inv :=
  h.hostMoves hm s.port.irqEn id s.host s.busData s.draws

theorem State.Inv.writeFlags {s : State} (h : s.Inv) {done : Bool} (irqEn : Bool)
    (hdone : s.port.done = false → done = false) :
    ({ s with port := { s.port with done := done, irqEn := irqEn } } : State).Inv :=
  h.hostMoves h.mem irqEn hdone s.host s.busData s.draws

theorem State.Inv.halt_of_idle {s : State} (h : s.Inv) (hbusy : s.port.busy = false) :
    s.stage = .idle ∧ s.parser.state = .halt := by
  have hidle : s.stage = .idle := by
    by_contra hne
    have := h.busy.2 hne
    simp [hbusy] at this
  have hfits := h.parser
  rw [hidle] at hfits
  exact ⟨hidle, by simpa [ParserState.fits] using hfits⟩

/-- What a write to a port that is not busy leaves, but for `CMD`. -/
theorem Port.write_idle {p : Port} (hbusy : p.busy = false) {off : Nat} (hoff : off ≠ 0) (v : Word) :
    (p.write off v).busy = false ∧ (p.write off v).err = p.err := by
  unfold Port.write
  rw [if_neg (c := p.busy = true) (by simp [hbusy]), if_neg (c := off = 0) hoff]
  repeat' split
  all_goals exact ⟨hbusy, rfl⟩

theorem State.writeReg_inv {s : State} (h : s.Inv) {off : Nat} (v : Word)
    (hapart : off = 0 → s.port.busy = false → s.buffersOverlap = false) : (s.writeReg off v).Inv := by
  by_cases hstatus : off = 4
  · subst hstatus
    exact h.writeFlags s.port.irqEn fun hdone => by simp [doneAfterStatusWrite, hdone]
  by_cases hctrl : off = 8
  · subst hctrl
    exact h.writeFlags (v.getLsbD 0) id
  cases hbusy : s.port.busy with
  | true =>
    have hsame : s.writeReg off v = s := by simp [State.writeReg, Port.write, hstatus, hctrl, hbusy]
    rwa [hsame]
  | false =>
    obtain ⟨hidle, hhalt⟩ := h.halt_of_idle hbusy
    by_cases hoff : off = 0
    · subst hoff
      have hcmd : s.writeReg 0 v = { s with port := { s.port with cmd := v, busy := true, done := false, err := 0#4 }, stage := .command } := by
        simp [State.writeReg, Port.write, hbusy]
      rw [hcmd]
      exact .of_command ⟨h.mem, h.cfg, h.coef0, h.coef1, Nat.zero_le 5, h.signMod⟩ rfl rfl rfl (hapart rfl hbusy) hhalt
    · obtain ⟨hbusy', herr⟩ := Port.write_idle hbusy hoff v
      refine .of_idle ⟨h.mem, h.cfg, h.coef0, h.coef1, (congrArg BitVec.toNat herr).trans_le h.err, h.signMod⟩ ?_ hbusy' hhalt
      simp [State.writeReg, hoff, hidle]

theorem State.readReg_inv {s : State} (h : s.Inv) (off : Nat) : (s.readReg off).Inv := by
  unfold State.readReg
  split
  · exact h.answered _ _
  · exact h.answered _ s.draws

theorem State.hwReset_inv {s : State} (h : s.Inv) : s.hwReset.Inv :=
  .of_idle ⟨h.mem, rfl, coefsLegal_freeCoefs _, coefsLegal_freeCoefs _, Nat.zero_le 5, Nat.zero_le 1⟩ rfl rfl rfl

theorem hostStep_inv {o : HostOp} {s t : State} (hs : s.Inv) (h : hostStep o s = .next t) : t.Inv := by
  cases o with
  | writeReg addr width v =>
    rw [hostStep] at h
    split at h
    case h_1 off _ =>
      unfold State.hostWriteReg at h
      split at h
      · cases h
      case isFalse hapart =>
        cases h
        refine State.writeReg_inv hs v fun hoff hbusy => ?_
        simpa [hoff, hbusy] using hapart
    case h_2 => cases h
  | readReg addr width =>
    rw [hostStep] at h
    split at h
    · cases h
      exact State.readReg_inv hs _
    · cases h
  | writeMem a b =>
    rw [hostStep, State.hostWrite] at h
    split at h
    · cases h
    split at h
    case h_1 m hm =>
      cases h
      exact hs.setMem (Memory.write_wf hs.mem hm)
    case h_2 => cases h
  | readMem a =>
    rw [hostStep, State.hostRead] at h
    split at h
    · split at h <;> cases h
      exact hs.answered _ _
    · split at h <;> cases h
      exact hs.answered _ s.draws
  | reset =>
    cases h
    exact State.hwReset_inv hs
  | turns n =>
    cases h
    exact hs
  | wait =>
    cases h
    exact hs

end Sys2Proof.Machine

namespace Sys2Proof.Proofs
open Sys2Proof.Machine

/-- Settles O7: the core has nothing to do, and its tables are zeros. -/
theorem resetMeetsInvariant : Obligations.ResetMeetsInvariant :=
  .of_idle ⟨State.reset_mem_wf, rfl, Tests.coefs_of (by decide), Tests.coefs_of (by decide), by decide, by decide⟩ rfl rfl rfl

/-- Settles O8: a step is the core's, which runs the instruction that is due, or the host's. -/
theorem stepKeepsInvariant : Obligations.StepKeepsInvariant := by
  intro s t hs h
  cases hturn : s.turn with
  | core rest => exact coreStep_inv (hs.setHost rest) ((step_core hturn).symm.trans h)
  | host o rest => exact hostStep_inv (hs.setHost rest) ((step_host hturn).symm.trans h)

end Sys2Proof.Proofs
end

section
/-! What the invariant is for: the core writes its output only, its cursor does not go back, and every command ends. -/

namespace Sys2Proof.Machine

/-! ### Buffers with an address in common (R73) -/

theorem inBuffer_same {base len : Word} : inBuffer base len base = true ↔ len ≠ 0#32 := by
  rw [inBuffer_iff, BitVec.sub_self, ne_eq, BitVec.toNat_eq, BitVec.toNat_ofNat, Nat.zero_mod]
  omega

/-- Two buffers meet exactly where they have an address in common: then the start of one is in the other. -/
theorem buffersMeet_iff {base len base' len' : Word} :
    buffersMeet base len base' len' = true ↔
      ∃ a : Word, (a - base).toNat < len.toNat ∧ (a - base').toNat < len'.toNat := by
  simp only [buffersMeet, Bool.and_eq_true, Bool.or_eq_true, bne_iff_ne, ← inBuffer_iff]
  constructor
  · rintro ⟨⟨hlen, hlen'⟩, h | h⟩
    · exact ⟨base', h, inBuffer_same.2 hlen'⟩
    · exact ⟨base, inBuffer_same.2 hlen, h⟩
  · rintro ⟨a, h, h'⟩
    rw [inBuffer_iff] at h h'
    refine ⟨⟨?_, ?_⟩, ?_⟩
    · rintro rfl
      simp at h
    · rintro rfl
      simp at h'
    · rw [inBuffer_iff, inBuffer_iff]
      bv_omega

theorem State.not_overlap {s : State} (h : s.buffersOverlap = false) {a : Word}
    (hin : (a - s.port.inAddr).toNat < s.port.inLen.toNat) : s.port.outCap.toNat ≤ (a - s.port.outAddr).toNat := by
  by_contra hout
  simp only [State.buffersOverlap, Bool.or_eq_false_iff] at h
  have hmeet := buffersMeet_iff.2 ⟨a, hin, not_le.1 hout⟩
  rw [h.1.1] at hmeet
  cases hmeet

/-! ### The bytes the core writes (R61) -/

/-- Every byte of an element is in the first `FRAME_BYTES_MAX` bytes of the output buffer. -/
theorem State.elementBytes_inside {s u : State} (hcfg : s.cfg.Legal) (hready : s.decodeReady = true)
    (hu : u.outside = s.outside) (hn : u.parser.n.toNat ≤ s.cfg.maxSamples.toNat)
    (hch : u.parser.ci + u.nch ≤ s.cfg.numCh.toNat) {w : Word × Byte} (hw : w ∈ u.elementBytes) :
    (w.1 - s.port.outAddr).toNat < s.frameBytesMax.toNat := by
  obtain ⟨j, hj, ch, hch', k, hk, haddr⟩ := State.mem_elementBytes hw
  rw [State.bps_congr hu] at hk
  have hoffset := State.sampleOffset_lt (s := s) (i := j) (c := u.parser.ci + ch) (k := k) (by omega)
    (State.slot_lt_of_decodeReady hready (by omega)) hk
  have hsize := State.frameSize_le hcfg
  rw [haddr, State.sampleAddr_congr hu, State.sampleAddr_add, BitVec.add_comm, BitVec.add_sub_cancel, BitVec.toNat_ofNat,
    Nat.mod_eq_of_lt (by omega), State.frameBytesMax_toNat hcfg]
  exact hoffset

theorem Effect.mem {i : Instr} {s t : State} (h : Effect i s t) :
    t.mem = s.mem ∨ ∃ u, EndsElement i s u ∧ u.outside = s.outside ∧ s.mem.writeAll u.elementBytes = some t.mem := by
  cases h with
  | error e u hu => exact .inl (State.outside_eq_iff.1 hu).2.2.1
  | goesOn _ ht => exact .inl (State.outside_eq_iff.1 ht).2.2.1
  | elementDone u m hi hu hm => exact .inr ⟨u, hi, hu, hm⟩
  | _ => exact .inl rfl

/-- The instruction that a form gives, where it ends an element but is no audio element: the parser is in the element. -/
theorem inElement_of_gives {s : State} {f : Form} {i : Instr} {j : Nat} (hf : s.form = some f) (hi : f.Gives i j)
    (hkind : (headerOf i).isSome = true ∨ (∃ c, i = residualOf c) ∨ ∃ c, i = .zeroRun c) : s.InElement := by
  obtain ⟨hstage, rfl⟩ | ⟨hstage, -⟩ | ⟨hstage, -⟩ | ⟨hstage, -⟩ := State.form_eq hf
  · obtain ⟨hwf, -⟩ := hi
    obtain hheader | ⟨c, rfl⟩ | ⟨c, rfl⟩ := hkind
    · cases i <;> cases hheader <;> cases hwf
    · cases c <;> cases hwf
    · cases hwf
  · exact .inl hstage
  · exact .inr (.inl hstage)
  · exact .inr (.inr hstage)

/-- A command word ends no element. -/
theorem not_endsElement_of_command {i : Instr} (hi : i.wf .command = true) (s u : State) : ¬ EndsElement i s u := by
  rintro (⟨⟨h, st, nch, hform⟩, -⟩ | ⟨hheader | ⟨c, rfl⟩ | ⟨c, rfl⟩, -⟩)
  · simp only [audioForms, List.mem_cons, Prod.mk.injEq, List.not_mem_nil, or_false] at hform
    obtain ⟨rfl, -⟩ | ⟨rfl, -⟩ | ⟨rfl, -⟩ := hform <;> cases hi
  · cases i <;> cases hheader <;> cases hi
  · cases c <;> cases hi
  · cases hi

/-- A core step leaves the host memory, or writes the bytes of an element that is within the configuration. -/
theorem coreStep_mem {s t : State} (hs : s.Inv) (h : coreStep s = .next t) :
    t.mem = s.mem ∨ s.InFrame ∧ ∃ u : State, u.outside = s.outside ∧ u.parser.n.toNat ≤ s.cfg.maxSamples.toNat ∧
      u.parser.ci + u.nch ≤ s.cfg.numCh.toNat ∧ s.mem.writeAll u.elementBytes = some t.mem := by
  by_cases hidle : s.stage = .idle
  · rw [coreStep_idle hidle] at h
    cases h
    exact .inl rfl
  by_cases hcommand : s.stage = .command
  · rw [coreStep_running hidle, fetch_command hcommand (hs.apart (hs.busy.2 hidle))] at h
    obtain hsame | ⟨u, hends, -⟩ := (exec_effect h).mem
    · exact .inl hsame
    · exact absurd hends (not_endsElement_of_command (decodeCommand_wf _) _ _)
  obtain ⟨f, hf⟩ := State.form_isSome ⟨hidle, hcommand⟩
  obtain ⟨c, rfl⟩ | ⟨-, i, j, c, hi, -, -, h⟩ := coreStep_stream hf h
  · exact .inl rfl
  obtain hsame | ⟨u, hends, hu, hm⟩ := (exec_effect h).mem
  · exact .inl hsame
  refine .inr ⟨⟨hidle, hcommand⟩, u, hu, ?_⟩
  obtain ⟨-, hn, hch⟩ | ⟨hkind, hn, hnch, hci⟩ := hends
  · exact ⟨hn, hch, hm⟩
  · have helement := hs.element (inElement_of_gives hf hi hkind)
    rw [hn, hnch, hci]
    exact ⟨helement.count, helement.channels, hm⟩

/-- The output buffer holds the largest frame (R235). -/
theorem State.frameBytesMax_le_of_decodeReady {s : State} (h : s.decodeReady = true) :
    s.frameBytesMax.toNat ≤ s.port.outCap.toNat := by
  simp only [State.decodeReady, Bool.and_eq_true, Bool.not_eq_true', BitVec.ult_eq_decide, decide_eq_false_iff_not,
    not_lt] at h
  exact h.1.2

/-! ### The cursor does not go back (R260) -/

theorem ErrKind.code_ne_zero (e : ErrKind) : e.code ≠ 0#4 := by
  cases e <;> decide

theorem State.raiseError_err_ne_zero (s : State) (e : ErrKind) : (s.raiseError e).port.err ≠ 0#4 := e.code_ne_zero

/-- The state is not one that an error leaves. -/
def State.NoError (t : State) : Prop := ∀ (u : State) (e : ErrKind), t ≠ u.raiseError e

theorem State.NoError.of_err_zero {t : State} (herr : t.port.err = 0#4) : t.NoError := by
  rintro u e rfl
  exact State.raiseError_err_ne_zero u e herr

theorem State.NoError.of_running {t : State} (hstage : t.stage ≠ .idle) : t.NoError := by
  rintro u e rfl
  exact hstage rfl

theorem State.NoError.ok {r : Res Unit} {t : State} (h : t.NoError) (ht : r.outcome = .next t) : r = .ok () t := by
  obtain hok | ⟨e, u, -, hu⟩ := Res.outcome_eq_next.1 ht
  · exact hok
  · exact absurd hu.symm (h u e)

theorem Res.Fails.ne_ok {s t : State} {r : Res Unit} (h : r.Fails s) : r ≠ .ok () t := by
  obtain rfl | ⟨e, u, rfl, -⟩ := h <;> exact nofun

theorem State.pos_congr {s t : State} (h : t.cursor = s.cursor) : t.pos = s.pos := by
  rw [State.pos, State.pos, h]

theorem State.Ahead.pos_le {s t : State} {c : Cursor} (h : s.Ahead c) (hs : s.Inside) (ht : t.cursor = c) : s.pos ≤ t.pos := by
  rw [State.pos_congr (t := t) (s := s.setCursor c) ht]
  exact (h hs).2

theorem State.storeSamples_cursor (s : State) (l : List (Word × Word)) : (s.storeSamples l).cursor = s.cursor := by
  unfold State.storeSamples
  split <;> rfl

theorem finishElement_cursor {u t : State} (h : finishElement u = .ok () t) : t.cursor = u.cursor := by
  obtain ⟨m, rfl⟩ := finishElement_eq_ok h
  rfl

theorem audioBody_pos {st : ParserState} {h : AudioHeader} {s t : State} (hs : s.Inside)
    (ht : audioBody st h s = .ok () t) : s.pos ≤ t.pos := by
  obtain hfail | ⟨-, ⟨l, c, hc, hr⟩ | ⟨-, -, -, shift, weight, c, hc, hr⟩⟩ := audioBody_cases st h s
  · exact absurd ht hfail.ne_ok
  · refine hc.pos_le hs ((finishElement_cursor (hr.symm.trans ht)).trans (State.storeSamples_cursor _ _))
  · cases hr.symm.trans ht
    exact hc.pos_le hs rfl

theorem predictorBody_pos {m q : BitVec 4} {r : BitVec 3} {n : BitVec 5} {cs : List (BitVec 16)} {s t : State}
    (hs : s.Inside) (ht : predictorBody m q r n cs s = .ok () t) : s.pos ≤ t.pos := by
  obtain ⟨-, -, h⟩ | h | ⟨l0, l1, c, hc, ⟨-, h⟩ | ⟨-, hends⟩⟩ := predictorBody_cases m q r n cs s
  · cases h.symm.trans ht
    exact (State.pos_congr (s.setCh_cursor _ _)).ge
  · exact absurd ht h.ne_ok
  · cases h.symm.trans ht
    exact hc.pos_le hs rfl
  · exact hc.pos_le hs (hends.runFrame ht).cursor

theorem exec_element_pos {i : Instr} {s t : State} {fd : FilDse} (hs : s.Inside) (hi : i.wf (.element fd) = true)
    (ht : exec i s = .next t) (hno : t.NoError) : s.pos ≤ t.pos := by
  cases i with
  | sce h => exact audioBody_pos hs (hno.ok ht)
  | cpe h => exact audioBody_pos hs (hno.ok ht)
  | lfe h => exact audioBody_pos hs (hno.ok ht)
  | cce =>
    cases ht
    exact absurd rfl (hno _ _)
  | pce =>
    cases ht
    exact absurd rfl (hno _ _)
  | gap cnt ext =>
    have hok := hno.ok ht
    obtain h | ⟨c, hc, h⟩ := gapBody_cases cnt ext s
    · exact absurd hok h.ne_ok
    · cases h.symm.trans hok
      exact hc.pos_le hs rfl
  | fill inst al cnt ext =>
    have hok := hno.ok ht
    obtain h | ⟨c, hc, h⟩ := fillBody_cases al cnt ext s
    · exact absurd hok h.ne_ok
    · cases h.symm.trans hok
      exact hc.pos_le hs rfl
  | endElement =>
    have hok := hno.ok ht
    obtain h | ⟨c, hc, h⟩ := endBody_cases s
    · exact absurd hok h.ne_ok
    · cases h.symm.trans hok
      exact hc.pos_le hs rfl
  | _ => cases hi

/-- The parameter of a codeword that is read is below 2^31. -/
theorem State.riceParam_lt {s : State} (hstage : s.stage = .residual ∨ s.stage = .zeroRun) (h : s.badParam = false) :
    s.riceParam.toNat < 2 ^ 31 := by
  have hpos : s.riceParam.slt 0#32 = false := by
    obtain hstage | hstage := hstage <;> simpa [State.badParam, hstage] using h
  rw [BitVec.slt_zero_eq_msb] at hpos
  exact BitVec.toNat_lt_of_msb_false hpos

/-- A fetch from the stream leaves the cursor inside the input, after the bits of the instruction. -/
theorem coreStep_stream_inside {s t : State} {f : Form} (hs : s.Inv) (hf : s.form = some f) (h : coreStep s = .next t) :
    (∃ c, t = (s.setCursor c).raiseError .malformedStream) ∨
      ∃ i j c, f.Gives i j ∧ (s.setCursor c).pos = s.pos + j ∧ (s.setCursor c).Inside ∧
        exec i (s.setCursor c) = .next t := by
  obtain herror | ⟨hparam, i, j, c, hi, hpos, hin, h⟩ := coreStep_stream hf h
  · exact .inl herror
  have hstage : s.InFrame := by
    obtain ⟨hstage, -⟩ | ⟨hstage, -⟩ | ⟨hstage, -⟩ | ⟨hstage, -⟩ := State.form_eq hf <;> simp [State.InFrame, hstage]
  have hinside := (hs.running hstage).inside
  refine .inr ⟨i, j, c, hi, ?_, hin hinside, h⟩
  have hj : j < 2 ^ 32 := by
    obtain ⟨-, rfl⟩ | ⟨-, rfl⟩ | ⟨hrun, rfl⟩ | ⟨hrun, rfl⟩ := State.form_eq hf
    · have := hi.2.2
      omega
    · have := hi.2.2
      omega
    · have hbits := (hs.element (.inr (.inl hrun))).bitsHigh
      have hk := State.riceParam_lt (.inl hrun) hparam
      have := hi.2
      omega
    · have hk := State.riceParam_lt (.inr hrun) hparam
      have := hi.2
      omega
  have hlt := hinside.pos_lt
  omega

/-! ### Every frame ends (R260, R320) -/

/-- What the parser has still to read in the element, beside the input: nothing at a tag or a header; in a run two units for each
value the channel lacks, one for a zero run that is due, and, in channel 0, more than the whole run of channel 1. -/
def State.runLeft (s : State) : Nat :=
  if s.stage = .residual ∨ s.stage = .zeroRun then
    2 * (s.parser.n.toNat - (s.ch s.chan).res.length) + (if s.stage = .zeroRun then 1 else 0) +
      (if s.chan = .c0 then 2 * s.parser.n.toNat + 2 else 0)
  else 0

/-- The measure that every step of a frame lowers: the bits of the input ahead, then the run. -/
def State.workLeft (s : State) : Nat := (s.endPos - s.pos) * 2 ^ 35 + s.runLeft

theorem State.runLeft_lt (s : State) : s.runLeft < 2 ^ 35 := by
  have hn := s.parser.n.isLt
  unfold State.runLeft
  split
  · split <;> split <;> omega
  · decide

/-- Bits that are read make up for any run. -/
theorem State.workLeft_lt_of_pos {s t : State} (hport : t.endPos = s.endPos) (hend : t.pos ≤ t.endPos) (hpos : s.pos < t.pos) :
    t.workLeft < s.workLeft := by
  have hrun := t.runLeft_lt
  unfold State.workLeft
  rw [hport] at hend ⊢
  have hbits : s.endPos - t.pos + 1 ≤ s.endPos - s.pos := by omega
  have := Nat.mul_le_mul_right (2 ^ 35) hbits
  rw [Nat.add_mul, one_mul] at this
  omega

theorem State.workLeft_lt_of_run {s t : State} (hport : t.endPos = s.endPos) (hpos : s.pos ≤ t.pos)
    (hrun : t.runLeft < s.runLeft) : t.workLeft < s.workLeft := by
  unfold State.workLeft
  rw [hport]
  have := Nat.mul_le_mul_right (2 ^ 35) (Nat.sub_le_sub_left hpos s.endPos)
  omega

theorem State.runLeft_of_element {s : State} (h : s.stage = .element) : s.runLeft = 0 := by
  simp [State.runLeft, h]

/-- The end of a channel's run leaves less than the units channel 0 has for the run of channel 1. -/
theorem ChannelEnds.runLeft {s t : State} {r : Res Unit} (h : ChannelEnds s r) (ht : r = .ok () t) :
    t.runLeft = 0 ∨ s.chan = .c0 ∧ t.runLeft ≤ 2 * s.parser.n.toNat := by
  cases h with
  | fails h => exact absurd ht h.ne_ok
  | second r hchan hnch hn hr =>
    cases ht
    refine .inr ⟨hchan, ?_⟩
    simp [State.runLeft, State.initRun, State.goto, State.setRice]
  | finish r hlast hr =>
    obtain ⟨m, rfl⟩ := finishElement_eq_ok ht
    exact .inl (State.runLeft_of_element rfl)
  | empty r r' hchan hnch hn hr hr' =>
    obtain ⟨m, rfl⟩ := finishElement_eq_ok ht
    exact .inl (State.runLeft_of_element rfl)

/-- Values that are stored in the run. -/
theorem State.length_stored (s : State) (l : List Word) (rice : Rice) :
    let s' := (s.pushRes l).setRice rice
    (s'.ch s'.chan).res.length = (s.ch s.chan).res.length + l.length ∧ s'.chan = s.chan ∧ s'.parser.n = s.parser.n := by
  have hchan : ((s.pushRes l).setRice rice).chan = s.chan := s.setCh_chan _ _
  have hch : (s.pushRes l).ch s.chan = { s.ch s.chan with res := (s.ch s.chan).res ++ l } := s.ch_setCh_same _ _
  refine ⟨?_, hchan, by simp⟩
  rw [hchan]
  change ((s.pushRes l).ch s.chan).res.length = _
  rw [hch, List.length_append]

/-- A codeword lowers what is left of the run: a residual stores a value; a zero run is over. -/
theorem codeword_runLeft {s t : State} {l : List Word} {rice : Rice} {g : Stage} {r : Res Unit}
    (h : RunGoesOn ((s.pushRes l).setRice rice) g r) (ht : r = .ok () t)
    (hrun : (s.ch s.chan).res.length < s.parser.n.toNat)
    (hstage : s.stage = .residual ∧ l.length = 1 ∧ (g = .residual ∨ g = .zeroRun) ∨ s.stage = .zeroRun ∧ g = .residual) :
    t.runLeft < s.runLeft := by
  obtain ⟨hlen, hchan, hn⟩ := s.length_stored l rice
  have hstart : s.runLeft = 2 * (s.parser.n.toNat - (s.ch s.chan).res.length) + (if s.stage = .zeroRun then 1 else 0) +
      (if s.chan = .c0 then 2 * s.parser.n.toNat + 2 else 0) :=
    if_pos (hstage.imp And.left And.left)
  obtain ⟨hlt, hr⟩ | hends := h
  · cases hr.symm.trans ht
    generalize (s.pushRes l).setRice rice = s' at *
    have hnext : (s'.goto g s'.chan).runLeft = 2 * (s'.parser.n.toNat - (s'.ch s'.chan).res.length) +
        (if g = .zeroRun then 1 else 0) + (if s'.chan = .c0 then 2 * s'.parser.n.toNat + 2 else 0) :=
      if_pos (by obtain ⟨-, -, hg⟩ | ⟨-, hg⟩ := hstage <;> simp [State.goto, hg])
    rw [hnext, hstart, hlen, hchan, hn]
    rw [hlen, hn] at hlt
    obtain ⟨hstage, hone, hg | hg⟩ | ⟨hstage, hg⟩ := hstage
    · simp only [hstage, hone, hg, reduceCtorEq, if_false]
      omega
    · simp only [hstage, hone, hg, reduceCtorEq, if_false, if_true]
      omega
    · simp only [hstage, hg, reduceCtorEq, if_false, if_true]
      omega
  · obtain hzero | ⟨hc0, hle⟩ := hends.runLeft ht
    · omega
    · rw [hchan] at hc0
      rw [hn] at hle
      rw [if_pos hc0] at hstart
      omega

/-! ### One step of a frame -/

theorem exec_codeword_runLeft {s t : State} {f : Form} {i : Instr} {j : Nat} (hs : s.Inv) (hf : s.form = some f)
    (hrun : s.stage = .residual ∨ s.stage = .zeroRun) (hi : f.Gives i j) {c : Cursor}
    (h : exec i (s.setCursor c) = .next t) (hidle : t.stage ≠ .idle) :
    t.runLeft < s.runLeft ∧ t.cursor = c := by
  have hleft := hs.run hrun
  have hkind : ((∃ w, i = residualOf w) ∨ ∃ w, i = .zeroRun w) := by
    obtain ⟨hstage, -⟩ | ⟨hstage, -⟩ | ⟨-, rfl⟩ | ⟨-, rfl⟩ := State.form_eq hf
    · simp [hstage] at hrun
    · simp [hstage] at hrun
    · obtain ⟨⟨w, hw, -⟩, -⟩ := hi
      exact .inl ⟨w, hw⟩
    · obtain ⟨⟨w, hw, -⟩, -⟩ := hi
      exact .inr ⟨w, hw⟩
  refine ⟨?_, (codeword_runFrame hkind h hidle).cursor⟩
  change _ < (s.setCursor c).runLeft
  obtain ⟨hstage, -⟩ | ⟨hstage, -⟩ | ⟨hstage, rfl⟩ | ⟨hstage, rfl⟩ := State.form_eq hf
  · simp [hstage] at hrun
  · simp [hstage] at hrun
  · obtain ⟨⟨w, rfl, -⟩, -⟩ := hi
    rw [exec_residualOf] at h
    obtain ⟨v, rice, g, -, hg, hgoes⟩ := residualBody_goesOn w (s.setCursor c)
    exact codeword_runLeft hgoes (Res.ok_of_next h hidle) hleft (.inl ⟨hstage, rfl, hg⟩)
  · obtain ⟨⟨w, rfl, -⟩, -⟩ := hi
    obtain hover | ⟨z, rice, -, hgoes⟩ := zeroRunBody_goesOn w (s.setCursor c)
    · cases (congrArg Res.outcome hover).symm.trans h
      exact absurd rfl hidle
    · exact codeword_runLeft hgoes (Res.ok_of_next h hidle) hleft (.inr ⟨hstage, rfl⟩)

/-- What an instruction does to the port while its command goes on: no more than the start of a frame. -/
theorem Effect.inLen_err {i : Instr} {s t : State} (h : Effect i s t) :
    t.port.inLen = s.port.inLen ∧ (t.stage ≠ .idle → t.port.err = s.port.err) := by
  have hsame {t : State} (ht : t.outside = s.outside) :
      t.port.inLen = s.port.inLen ∧ (t.stage ≠ .idle → t.port.err = s.port.err) := by
    obtain ⟨-, hport, -⟩ := State.outside_eq_iff.1 ht
    exact ⟨by rw [hport], fun _ => by rw [hport]⟩
  cases h with
  | error e u hu => exact ⟨(hsame hu).1, absurd rfl⟩
  | goesOn _ ht => exact hsame ht
  | elementDone u m _ hu => exact hsame (t := u.goto .element .c0) hu
  | frameStarted => exact ⟨rfl, fun _ => rfl⟩
  | _ => exact ⟨rfl, absurd rfl⟩

theorem Effect.stage_ne_command {i : Instr} {s t : State} (h : Effect i s t) : t.stage ≠ .command := by
  cases h with
  | goesOn _ _ hin => exact hin.2
  | _ => exact nofun

/-- A step of a frame ends the command or leaves less work. -/
theorem coreStep_workLeft {s t : State} (hs : s.Inv) (hin : s.InFrame) (h : coreStep s = .next t) :
    t.stage = .idle ∨ t.InFrame ∧ t.workLeft < s.workLeft := by
  obtain ⟨f, hf⟩ := State.form_isSome hin
  by_cases hidle : t.stage = .idle
  · exact .inl hidle
  have ht := coreStep_inv hs h
  obtain ⟨c, rfl⟩ | ⟨i, j, c, hi, hpos, hinside, h⟩ := coreStep_stream_inside hs hf h
  · exact absurd rfl hidle
  have hcommand : t.stage ≠ .command := (exec_effect h).stage_ne_command
  refine .inr ⟨⟨hidle, hcommand⟩, ?_⟩
  have hend := (ht.running ⟨hidle, hcommand⟩).inside.1
  obtain ⟨hlen, -⟩ := (exec_effect h).inLen_err
  have hport : t.endPos = s.endPos := by
    rw [State.endPos, State.endPos, hlen]
    rfl
  have hno := State.NoError.of_running hidle
  obtain ⟨-, rfl⟩ | ⟨-, rfl⟩ | ⟨hrun, -⟩ | ⟨hrun, -⟩ := State.form_eq hf
  · have := exec_element_pos hinside hi.1 h hno
    have := hi.2.1
    exact State.workLeft_lt_of_pos hport hend (by omega)
  · obtain ⟨hwf, hlow, -⟩ := hi
    obtain ⟨m, q, r, n, cs, hheader, -⟩ := length_le_of_predictor_wf hwf
    rw [exec_of_headerOf hheader] at h
    have := predictorBody_pos hinside (hno.ok h)
    exact State.workLeft_lt_of_pos hport hend (by omega)
  all_goals
    obtain ⟨hless, hcursor⟩ := exec_codeword_runLeft hs hf (by simp [hrun]) hi h hidle
    have := State.pos_congr (t := t) (s := s.setCursor c) hcursor
    exact State.workLeft_lt_of_run hport (by omega) hless

/-! ### The run of a command -/

/-- The core comes to a state that is not busy, or to a fault. -/
def State.Ends (s : State) : Prop :=
  ∃ n, match core.run n s with
    | .next t => t.port.busy = false
    | .fault _ => True
    | .refused _ => False

theorem State.Ends.of_idle {s : State} (hs : s.Inv) (h : s.stage = .idle) : s.Ends := by
  refine ⟨0, ?_⟩
  change s.port.busy = false
  by_contra hbusy
  exact hs.busy.1 (by simpa using hbusy) h

/-- Any machine's run by its first step. -/
theorem run_of_next (M : Host.Core) {s t : M.State} (h : M.step s = .next t) (n : Nat) : M.run (n + 1) s = M.run n t := by
  rw [Host.Core.run, h]

theorem run_of_fault (M : Host.Core) {s : M.State} {f : M.Fault} (h : M.step s = .fault f) (n : Nat) :
    M.run (n + 1) s = .fault f := by
  rw [Host.Core.run, h]

theorem State.Ends.of_next {s t : State} (h : step s = .next t) (ht : t.Ends) : s.Ends := by
  obtain ⟨n, hn⟩ := ht
  refine ⟨n + 1, ?_⟩
  rwa [run_of_next core h]

theorem State.Ends.of_fault {s : State} {f : Fault} (h : step s = .fault f) : s.Ends := by
  refine ⟨1, ?_⟩
  rw [run_of_fault core h]
  trivial

theorem step_of_host_nil {s : State} (h : s.host = []) : step s = coreStep s := by
  have hsame : s.setHost [] = s := by rw [← h]; rfl
  rw [step_core (turn_of_host_nil h), hsame]

theorem coreStep_ne_refused (s : State) (x : Refusal) : coreStep s ≠ .refused x := by
  unfold coreStep
  split
  · exact nofun
  · cases fetch s with
    | ok i u =>
      obtain ⟨r, hr⟩ := exec_eq_outcome i u
      exact fun h => Res.outcome_ne_refused r x (hr.symm.trans h)
    | raised e u => exact nofun
    | stuck f => exact nofun

theorem coreStep_host {s t : State} (hs : s.Inv) (h : coreStep s = .next t) : t.host = s.host := by
  by_cases hidle : s.stage = .idle
  · rw [coreStep_idle hidle] at h
    cases h
    rfl
  by_cases hcommand : s.stage = .command
  · rw [coreStep_running hidle, fetch_command hcommand (hs.apart (hs.busy.2 hidle))] at h
    exact (exec_effect h).keeps.host
  obtain ⟨f, hf⟩ := State.form_isSome ⟨hidle, hcommand⟩
  obtain ⟨c, rfl⟩ | ⟨-, i, j, c, -, -, -, h⟩ := coreStep_stream hf h
  · rfl
  · exact (exec_effect h).keeps.host

/-- A step to states that end. -/
theorem State.Ends.of_step {s : State} (hs : s.Inv) (hhost : s.host = [])
    (h : ∀ t : State, coreStep s = .next t → t.Inv → t.host = [] → t.Ends) : s.Ends := by
  cases hstep : coreStep s with
  | next t =>
    exact .of_next ((step_of_host_nil hhost).trans hstep)
      (h t hstep (coreStep_inv hs hstep) ((coreStep_host hs hstep).trans hhost))
  | fault f => exact .of_fault ((step_of_host_nil hhost).trans hstep)
  | refused x => exact absurd hstep (coreStep_ne_refused s x)

theorem State.Ends.of_inFrame {s : State} (hs : s.Inv) (hhost : s.host = []) (hin : s.InFrame) : s.Ends := by
  induction hwork : s.workLeft using Nat.strong_induction_on generalizing s with
  | _ w ih =>
    refine .of_step hs hhost fun t ht htinv hthost => ?_
    obtain hidle | ⟨htin, hless⟩ := coreStep_workLeft hs hin ht
    · exact .of_idle htinv hidle
    · exact ih _ (hwork ▸ hless) htinv hthost htin rfl

end Sys2Proof.Machine

namespace Sys2Proof.Proofs
open Sys2Proof.Machine

/-- Settles O9: the bytes of an element within the configuration are in the output buffer, which does not meet the input. -/
theorem coreWritesOnlyOutput : Obligations.CoreWritesOnlyOutput := by
  intro s t hs h
  obtain hsame | ⟨hin, u, hu, hn, hch, hm⟩ := coreStep_mem hs h
  · exact ⟨fun a _ => by rw [hsame], fun a _ => by rw [hsame]⟩
  have hrunning := hs.running hin
  have hready := hrunning.frame.ready
  have hfar (a : Word) (ha : s.frameBytesMax.toNat ≤ (a - s.port.outAddr).toNat) : t.mem.read a = s.mem.read a := by
    refine Memory.read_writeAll_other hm fun w hw hwa => ?_
    have hinside := State.elementBytes_inside hs.cfg hready hu hn hch hw
    rw [hwa] at hinside
    omega
  refine ⟨hfar, fun a ha => hfar a ?_⟩
  exact (State.frameBytesMax_le_of_decodeReady hready).trans (State.not_overlap hrunning.apart ha)

/-- Settles O60: the bits of an element or header are 3 at least, and what it does then moves the cursor ahead or not at all. -/
theorem cursorOnlyMovesForward : Obligations.CursorOnlyMovesForward := by
  intro s t hs hstage h herr
  have hno := State.NoError.of_err_zero herr
  obtain ⟨f, hf⟩ := State.form_isSome (s := s) (by obtain hstage | hstage := hstage <;> simp [State.InFrame, hstage])
  obtain ⟨c, rfl⟩ | ⟨i, j, c, hi, hpos, hin, h⟩ := coreStep_stream_inside hs hf h
  · exact absurd rfl (hno _ _)
  suffices hj : 3 ≤ j ∧ (s.setCursor c).pos ≤ t.pos by omega
  obtain ⟨-, rfl⟩ | ⟨-, rfl⟩ | ⟨hrun, -⟩ | ⟨hrun, -⟩ := State.form_eq hf
  · exact ⟨hi.2.1, exec_element_pos hin hi.1 h hno⟩
  · obtain ⟨hwf, hlow, -⟩ := hi
    obtain ⟨m, q, r, n, cs, hheader, -⟩ := length_le_of_predictor_wf hwf
    rw [exec_of_headerOf hheader] at h
    exact ⟨by omega, predictorBody_pos hin (hno.ok h)⟩
  · obtain hstage | hstage := hstage <;> rw [hstage] at hrun <;> cases hrun
  · obtain hstage | hstage := hstage <;> rw [hstage] at hrun <;> cases hrun

/-- Settles O12: a command word ends its command or starts a frame, each step of which leaves less work. -/
theorem everyFrameEnds : Obligations.EveryFrameEnds := by
  intro s hs hhost
  by_cases hidle : s.stage = .idle
  · exact State.Ends.of_idle hs hidle
  by_cases hcommand : s.stage = .command
  case neg => exact State.Ends.of_inFrame hs hhost ⟨hidle, hcommand⟩
  refine State.Ends.of_step hs hhost fun t ht htinv hthost => ?_
  rw [coreStep_running hidle, fetch_command hcommand (hs.apart (hs.busy.2 hidle))] at ht
  by_cases htidle : t.stage = .idle
  · exact .of_idle htinv htidle
  · exact .of_inFrame htinv hthost ⟨htidle, (exec_effect ht).stage_ne_command⟩

end Sys2Proof.Proofs
end

section
/-! The host port and the host commands (families 10, 20, 46 and 60): registers by their offsets, status and errors, CONFIGURE and DECODE. -/

namespace Sys2Proof.Machine

/-! ### Registers (R24) -/

theorem hostStep_readReg_of_some {s : State} {addr : Word} {width off : Nat} (h : s.regOffset addr width = some off) :
    hostStep (.readReg addr width) s = .next (s.readReg off) := by
  simp only [hostStep, h]

theorem isResultReg_iff (off : Nat) : isResultReg off = true ↔ off ∈ [0x24, 0x2C, 0x30, 0x38] := by
  simp [isResultReg, or_assoc]

/-- A port that is not busy takes a write of one of these registers. -/
theorem Port.write_eq_self {p : Port} {off : Nat} (v : Word) (hbusy : p.busy = false)
    (hoff : off ∉ [0x00, 0x04, 0x08, 0x0C, 0x10, 0x14, 0x18, 0x1C, 0x20, 0x28, 0x34]) : p.write off v = p := by
  simp only [List.mem_cons, List.not_mem_nil, or_false, not_or] at hoff
  obtain ⟨h0, h4, h8, hc, h10, h14, h18, h1c, h20, h28, h34⟩ := hoff
  simp [Port.write, hbusy, h0, h4, h8, hc, h10, h14, h18, h1c, h20, h28, h34]

theorem State.writeReg_eq_self {s : State} {off : Nat} (v : Word) (hbusy : s.port.busy = false)
    (hoff : off ∉ [0x00, 0x04, 0x08, 0x0C, 0x10, 0x14, 0x18, 0x1C, 0x20, 0x28, 0x34]) : s.writeReg off v = s := by
  have hcmd : off ≠ 0 := by rintro rfl; simp at hoff
  rw [State.writeReg, Port.write_eq_self v hbusy hoff, if_neg (fun h => hcmd h.1)]

/-- A write of a register but `CMD` reaches the port only. -/
theorem State.writeReg_eq_port {s : State} {off : Nat} (v : Word) (hoff : off ≠ 0) :
    s.writeReg off v = { s with port := (s.writeReg off v).port } := by
  simp [State.writeReg, hoff]

/-- A write of one register leaves what the others read as. -/
theorem State.regValue_writeReg_other {s : State} {off other : Nat} (v : Word) (hbusy : s.port.busy = false) (hoff : off ≠ 0)
    (hother : other ≠ off) : (s.writeReg off v).regValue other = s.regValue other := by
  by_cases hrw : off ∈ [0x00, 0x04, 0x08, 0x0C, 0x10, 0x14, 0x18, 0x1C, 0x20, 0x28, 0x34]
  case neg => rw [State.writeReg_eq_self v hbusy hrw]
  simp only [List.mem_cons, List.not_mem_nil, or_false, hoff, false_or] at hrw
  obtain rfl | rfl | rfl | rfl | rfl | rfl | rfl | rfl | rfl | rfl := hrw
  all_goals simp [State.regValue, State.writeReg, Port.write, hbusy, hother, State.status]

theorem State.regValue_writeReg_same {s : State} {off : Nat} (v : Word) (hbusy : s.port.busy = false)
    (hoff : off ∈ [0x0C, 0x10, 0x14, 0x18, 0x1C, 0x20, 0x28, 0x34]) : (s.writeReg off v).regValue off = v := by
  simp only [List.mem_cons, List.not_mem_nil, or_false] at hoff
  obtain rfl | rfl | rfl | rfl | rfl | rfl | rfl | rfl := hoff
  all_goals simp [State.regValue, State.writeReg, Port.write, hbusy]

theorem ofBool_setWidth (c : Bool) : (BitVec.ofBool c).setWidth 32 = if c then 1#32 else 0#32 := by
  cases c <;> rfl

theorem State.regValue_ctrl (s : State) : s.regValue 0x08 = if s.port.irqEn then 1#32 else 0#32 :=
  ofBool_setWidth s.port.irqEn

theorem State.regValue_writeReg_ctrl (s : State) (v : Word) : (s.writeReg 0x08 v).regValue 0x08 = v &&& 1#32 := by
  have hirq : (s.writeReg 0x08 v).port.irqEn = v.getLsbD 0 := rfl
  rw [State.regValue_ctrl, hirq, BitVec.and_one_eq_setWidth_ofBool_getLsbD, ofBool_setWidth]

/-- The offsets that read 0. -/
theorem State.regValue_reserved (s : State) {off : Nat} (hoff : off ∈ [0x00, 0x3C] ∨ 0x4C ≤ off) : s.regValue off = 0#32 := by
  obtain hoff | hoff := hoff
  · simp only [List.mem_cons, List.not_mem_nil, or_false] at hoff
    obtain rfl | rfl := hoff <;> rfl
  · unfold State.regValue
    repeat rw [if_neg (by omega)]

/-- The configuration word (R24). -/
theorem State.regValue_cfg (s : State) :
    (s.regValue 0x44).toNat = s.cfg.bits.toNat + 2 ^ 8 * s.cfg.histMult.toNat + 2 ^ 16 * s.cfg.initHist.toNat +
      2 ^ 24 * s.cfg.kmod.toNat := by
  change (s.cfg.kmod ++ s.cfg.initHist ++ s.cfg.histMult ++ s.cfg.bits : BitVec 32).toNat = _
  simp only [toNat_append_eq_add]
  omega

/-! ### Host memory (R60, R73) -/

theorem Memory.serves_of_unserved {m : Memory} (h : m.unserved = []) (a : Nat) : m.serves a = true := by
  simp [Memory.serves, h]

theorem hostStep_writeMem {s : State} {a : Word} {b : Byte} (hserved : s.mem.serves a.toNat = true)
    (hfree : (s.port.busy && s.inAnyBuffer a) = false) :
    ∃ m, s.mem.write a b = some m ∧ hostStep (.writeMem a b) s = .next (s.setMem m) := by
  refine ⟨_, if_pos hserved, ?_⟩
  rw [hostStep, State.hostWrite, hfree, Memory.write, if_pos hserved]
  rfl

/-! ### Status and errors -/

theorem State.status_toNat (s : State) :
    s.status.toNat = s.port.busy.toNat + 2 * s.port.done.toNat + 4 * s.cfg.configured.toNat + 16 * s.port.err.toNat := by
  simp only [State.status, toNat_append_eq_add, BitVec.toNat_ofBool, BitVec.toNat_ofNat]
  omega

theorem State.op_eq_one_iff (s : State) : s.op = 1#4 ↔ s.port.cmd.toNat % 16 = 1 := by
  rw [State.op, BitVec.toNat_eq, BitVec.extractLsb'_toNat, Nat.shiftRight_zero]
  rfl

/-! ### CONFIGURE and DECODE (R231 to R236) -/

/-- CONFIGURE on a cookie that is too short or illegal (R233). -/
theorem exec_configure_of_rejected {s : State}
    (h : s.port.cookieLen.toNat < 12 ∨ ∃ l, s.cookie = some l ∧ ¬ cookieLegal l = true) :
    exec (.configure 0#6 0#6) s = .next ((s.setCfg .clear).raiseError .invalidConfig) := by
  have hargs : argsZero 0#6 0#6 = true := rfl
  rw [exec, execConfigure, configureBody, hargs, require_true, Res.bind_ok]
  by_cases hlen : s.port.cookieLen.toNat < Config.cookieMinBytes
  · rw [if_pos hlen, Res.outcome_raised]
  · obtain ⟨l, hcookie, hbad⟩ := h.resolve_left hlen
    rw [if_neg hlen]
    simp only [hcookie, if_neg hbad, Res.outcome_raised]

theorem StreamCfg.Legal.configured_of_pos {c : StreamCfg} (h : c.Legal) (hch : 0 < c.numCh.toNat) : c.configured = true := by
  by_contra hc
  rw [StreamCfg.Legal, if_neg hc] at h
  rw [h] at hch
  simp [StreamCfg.clear] at hch

/-- The preconditions of DECODE on a legal configuration (R235, R236). -/
theorem State.decodeReady_iff {s : State} (h : s.cfg.Legal) :
    s.decodeReady = true ↔ s.cfg.configured = true ∧
      s.cfg.maxSamples.toNat * s.cfg.numCh.toNat * bytesPerSample s.cfg.bits ≤ s.port.outCap.toNat ∧
      ∀ c < s.cfg.numCh.toNat, s.port.chmap.toNat / 16 ^ c % 16 < s.cfg.numCh.toNat := by
  simp only [State.decodeReady, Bool.and_eq_true, Bool.not_eq_true', BitVec.ult_eq_decide, decide_eq_false_iff_not, not_lt,
    List.all_eq_true, List.mem_range, decide_eq_true_eq, State.slot_eq_div_mod, State.frameBytesMax_toNat h, and_assoc]
  rfl

theorem State.buffersOverlap_iff (s : State) :
    s.buffersOverlap = true ↔ ∃ a : Word,
      (a - s.port.inAddr).toNat < s.port.inLen.toNat ∧ (a - s.port.outAddr).toNat < s.port.outCap.toNat ∨
      (a - s.port.cookieAddr).toNat < s.port.cookieLen.toNat ∧ (a - s.port.inAddr).toNat < s.port.inLen.toNat ∨
      (a - s.port.cookieAddr).toNat < s.port.cookieLen.toNat ∧ (a - s.port.outAddr).toNat < s.port.outCap.toNat := by
  simp only [State.buffersOverlap, Bool.or_eq_true, buffersMeet_iff, exists_or, or_assoc]

/-! ### A lone END (R259) -/

/-- An input of one byte. -/
theorem State.inputReadable_of_one {s : State} {b : Byte} (hlen : s.port.inLen = 1#32) (hb : s.mem.read s.port.inAddr = some b) :
    s.InputReadable := by
  intro j hj
  rw [hlen] at hj
  obtain rfl : j = 0 := by simpa using hj
  rw [BitVec.add_zero, hb]
  rfl

theorem bits_of_endTag : ∀ b : Byte, b.toNat / 32 = 7 → b[7] = true ∧ b[6] = true ∧ b[5] = true := by decide

theorem State.streamNat_tag_of_one {s : State} {b : Byte} (hlen : s.port.inLen = 1#32)
    (hb : s.mem.read s.port.inAddr = some b) (htag : b.toNat / 32 = 7) : s.streamNat 0 3 = 7 := by
  obtain ⟨h7, h6, h5⟩ := bits_of_endTag b htag
  have hbyte : s.inByte 0 = some b := by simp [State.inByte, hlen, hb]
  simp [State.streamNat, State.streamBit, hbyte, h7, h6, h5]

/-- The element at the start of a one-byte frame whose top three bits are the end tag. -/
theorem fetch_loneEnd {s : State} {b : Byte} (hstage : s.stage = .element) (hpos : s.pos = 0) (hlen : s.port.inLen = 1#32)
    (hb : s.mem.read s.port.inAddr = some b) (htag : b.toNat / 32 = 7) : fetch s = .ok .endElement (s.cursorAt 3) := by
  have hend : s.endPos = 8 := by rw [State.endPos, hlen]; rfl
  have hread : readBits 3 s = .ok 7#32 (s.cursorAt 3) := by
    rw [readBits_eq_ok (by decide) ⟨State.inputReadable_of_one hlen hb, by omega, by omega⟩, hpos, State.streamWord,
      State.streamNat_tag_of_one hlen hb htag]
  have hform : s.form = some (.element s.params.filDse) := by simp [State.form, hstage]
  have hparam : s.badParam = false := by simp [State.badParam, hstage]
  rw [fetch, hform]
  dsimp only
  rw [fetchStream, hparam]
  simp only [Bool.false_eq_true, if_false, formFields, elementFields, fetchFields, hread, Res.bind_ok]
  rfl

end Sys2Proof.Machine

namespace Sys2Proof.Proofs
open Sys2Proof.Machine

/-- Settles O15: the registers by their offsets, and the host's accesses to memory by what is served. -/
theorem registersReadBack : Obligations.RegistersReadBack := by
  refine ⟨fun s off v hidle hlt hal => ⟨fun hstart => ?_, ?_, ?_, ?_, ?_, ?_, ?_⟩, fun s => ?_, fun s off hbusy hlt hal => ?_,
    fun s a b hserved hfree => ?_, fun s a b hread hfree => ?_⟩
  · rw [hostStep_writeReg_of_some v (s.regOffset_coreBase_add hlt hal), State.hostWriteReg_eq_next v]
    exact hstart.imp_right .inr
  · rw [hostStep_readReg_of_some (s.regOffset_coreBase_add hlt hal), State.readReg, hidle]
    rfl
  · exact State.regValue_writeReg_same v hidle
  · exact State.regValue_writeReg_ctrl s v
  · exact fun hoff => ⟨State.writeReg_eq_port v hoff, fun other hother => State.regValue_writeReg_other v hidle hoff hother⟩
  · refine fun hoff => State.writeReg_eq_self v hidle fun hrw => ?_
    simp only [List.mem_cons, List.not_mem_nil, or_false] at hoff hrw
    omega
  · exact State.regValue_reserved s
  · refine ⟨rfl, State.regValue_ctrl s, rfl, rfl, rfl, rfl, rfl, rfl, rfl, rfl, rfl, ?_, rfl, rfl, rfl,
      State.regValue_cfg s, ?_⟩
    · exact (BitVec.ofNat_toNat 32 s.cursor.bitOff).symm
    · exact (BitVec.ofNat_toNat 32 s.cfg.numCh).symm
  · rw [hostStep_readReg_of_some (s.regOffset_coreBase_add hlt hal), State.readReg, hbusy, Bool.true_and]
    simp only [isResultReg_iff]
    split <;> rfl
  · obtain ⟨m, hm, hstep⟩ := hostStep_writeMem (a := a) (b := b) (Memory.serves_of_unserved hserved a.toNat) (by
      cases hbusy : s.port.busy with
      | false => rfl
      | true =>
        obtain ⟨hcookie, hin, hout⟩ := hfree hbusy
        rw [Bool.true_and, Bool.eq_false_iff, ne_eq, State.inAnyBuffer_iff]
        omega)
    exact ⟨m, hstep, Memory.read_write_same hm, fun other hother => Memory.read_write_other hm hother⟩
  · have hout : (s.port.busy && inBuffer s.port.outAddr s.port.outCap a) = false := by
      cases hbusy : s.port.busy with
      | false => rfl
      | true =>
        rw [Bool.true_and, Bool.eq_false_iff, ne_eq, inBuffer_iff]
        exact not_lt.2 (hfree hbusy)
    rw [hostStep, State.hostRead, hout, hread]
    rfl

/-- Settles O16: the status word bit by bit, and the write of `DONE`. -/
theorem statusAndInterrupt : Obligations.StatusAndInterrupt := by
  intro s v
  have hwrite : s.writeReg 4 v = { s with port := { s.port with done := s.port.done && !v.getLsbD 1 } } := rfl
  refine ⟨State.status_toNat s, ?_, hwrite, ?_, ?_, ?_⟩
  · rw [hostStep_writeReg_of_some v (s.regOffset_coreBase_add (off := 4) (by decide) (by decide)),
      State.hostWriteReg_eq_next v (.inl (by decide))]
  · rw [State.irq, Bool.and_eq_true]
  · intro hbit
    simp [hwrite, State.irq, hbit]
  · intro hbit
    simp only [hwrite, State.irq, hbit, Bool.not_false, Bool.and_true]

/-- Settles O18: the reset input writes the reset values, and the coefficient tables with free ones. -/
theorem resetInput : Obligations.ResetInput := by
  intro s
  refine ⟨s.hwReset, rfl, rfl, rfl, rfl, rfl, rfl, fun c => ?_, rfl, rfl, rfl, rfl⟩
  cases c <;> exact ⟨rfl, rfl, rfl, rfl⟩

/-- Settles O19: what taking an error writes; the free values of its tables are in range. -/
theorem errorEndsCommand : Obligations.ErrorEndsCommand := by
  intro s e
  refine ⟨?_, rfl, rfl, rfl, rfl, rfl, rfl, rfl, coefsLegal_freeCoefs _, coefsLegal_freeCoefs _⟩
  simp only [State.raiseError_port, State.op_eq_one_iff]
  cases e <;> rfl

/-- Settles O22: each of these cookies is too short or fails a check of R231. -/
theorem configureRejectsCookie : Obligations.ConfigureRejectsCookie := by
  intro s b ms hbad
  refine ⟨_, exec_configure_of_rejected (hbad.imp_right fun ⟨hread, hfield⟩ => ⟨_, State.cookie_eq hread, ?_⟩), rfl, rfl,
    rfl, rfl, rfl, rfl, rfl⟩
  rw [cookieLegal_iff, cookieMax_map_range]
  simp only [cookieByte_map_range, Nat.reduceLT]
  have hzero : b 9 = 0#8 ↔ (b 9).toNat = 0 := BitVec.toNat_eq
  have hms : cookieMs b = ms := rfl
  rw [hms]
  rintro ⟨hlow, hhigh, hversion, hdepth, hch, hch8⟩
  obtain h | h | h | h | h | h := hfield
  · omega
  · omega
  · exact h hversion
  · exact h hdepth
  · have := hzero.1 h
    omega
  · omega

/-- Settles O23: on a legal configuration these are the preconditions that DECODE checks. -/
theorem decodeStartsFrame : Obligations.DecodeStartsFrame := by
  intro s hcfg hconfigured hcap hmap
  have hready := (State.decodeReady_iff hcfg).2 ⟨hconfigured, hcap, hmap⟩
  exact exec_decode_of_ready (a := 0#6) (b := 0#6) s hready

/-- Settles O24: the preconditions and the overlap of buffers as arithmetic, and where each is checked. -/
theorem decodePreconditions : Obligations.DecodePreconditions := by
  refine ⟨fun s hcfg hbad => exec_decode_of_not_ready s ?_, fun s v hidle hover => ?_, fun s rest hturn hstage hover => ?_,
    fun s hcfg => State.decodeReady_iff hcfg, fun s => State.buffersOverlap_iff s⟩
  · rw [Bool.and_eq_true, State.decodeReady_iff hcfg]
    rintro ⟨-, hconfigured, hcap, hmap⟩
    obtain h | h | ⟨c, hc, h⟩ := hbad
    · simp [h] at hconfigured
    · omega
    · exact absurd (hmap c hc) (not_lt.2 h)
  · rw [hostStep_writeReg_of_some v s.regOffset_coreBase, State.hostWriteReg, if_pos ⟨rfl, hidle, hover⟩]
  · have hcommand : (s.setHost rest).stage = .command := hstage
    rw [step_core hturn, coreStep_running (by rw [hcommand]; decide), fetch_command_overlap hcommand hover]
    rfl

/-- Settles O25: the command word starts the frame, and the end tag is followed by the end of the input. -/
theorem loneEndDecodes : Obligations.LoneEndDecodes := by
  intro s b hstage hhost hcmd hready hapart hlen hb htag
  have hfirst : step s = .next s.startFrame := by
    have hdecode : decodeCommand s.port.cmd = .decode 0#6 0#6 := by rw [hcmd]; decide
    rw [step_of_host_nil hhost, coreStep_running (by rw [hstage]; decide), fetch_command hstage hapart, hdecode]
    exact exec_decode_of_ready s hready
  have hend : s.startFrame.endPos = 8 := by
    change 8 * s.port.inLen.toNat = 8
    rw [hlen]
    rfl
  have hsecond : step s.startFrame = exec .endElement (s.startFrame.cursorAt 3) := by
    rw [step_of_host_nil (show s.startFrame.host = [] from hhost), coreStep_running (show s.startFrame.stage ≠ .idle from nofun),
      fetch_loneEnd (s := s.startFrame) rfl rfl hlen hb htag]
    rfl
  have hpos : (s.startFrame.cursorAt 3).pos = 3 := State.cursorAt_pos _ (by decide)
  have hexec := endChecksTrailingBytes (s.startFrame.cursorAt 3) (by rw [hpos, State.cursorAt_endPos, hend]; decide)
    (by rw [hpos]; decide)
  rw [hpos, State.cursorAt_endPos, hend, if_pos (by decide)] at hexec
  refine ⟨_, (run_of_next core hfirst 1).trans (run_of_next core (hsecond.trans hexec) 0), rfl, rfl, rfl, rfl, rfl, ?_⟩
  exact State.cursorAt_pos (s.startFrame.cursorAt 3) (p := 8) (by decide)

end Sys2Proof.Proofs
end

section
/-! The Rice run of a channel (family 43), the skips, and the start and the samples of audio elements (family 46). -/

namespace Sys2Proof.Machine

/-! ### The arithmetic of a value (R153 to R158) -/

theorem toInt_of_lt {d : Word} (h : d.toNat < 2 ^ 31) : d.toInt = d.toNat := BitVec.toInt_eq_toNat_of_lt (by omega)

/-- The half of the sign mapping (R157). -/
theorem toInt_half {d : Word} (h : d.toNat < 2 ^ 31 - 1) : ((d + 1#32).sdiv 2#32).toInt = (d.toNat + 1) / 2 := by
  have hsum : (d + 1#32).toNat = d.toNat + 1 := by
    rw [BitVec.toNat_add]
    simp only [BitVec.toNat_ofNat]
    omega
  rw [BitVec.toInt_sdiv_of_ne_or_ne _ _ (.inr (by decide)), toInt_of_lt (by omega), hsum,
    show (2#32).toInt = 2 from rfl, Int.tdiv_eq_ediv_of_nonneg (by omega)]
  rfl

theorem and_one_ne_zero_iff (d : Word) : d &&& 1#32 ≠ 0#32 ↔ d.toNat % 2 = 1 := by
  rw [ne_eq, BitVec.toNat_eq, BitVec.toNat_and]
  simp only [BitVec.toNat_ofNat, Nat.reducePow, Nat.reduceMod, Nat.zero_mod, Nat.and_one_is_mod]
  omega

theorem unzigzag_toInt {d : Word} (h : d.toNat < 2 ^ 31 - 1) :
    (unzigzag d).toInt = if d.toNat % 2 = 1 then -((d.toNat + 1) / 2 : Int) else ((d.toNat + 1) / 2 : Int) := by
  have hhalf := toInt_half h
  simp only [unzigzag, and_one_ne_zero_iff]
  split
  · rw [BitVec.toInt_neg, hhalf, Int.bmod_eq_of_le_mul_two (by omega) (by omega)]
  · exact hhalf

/-- `pb` is at most 446 (R151). -/
theorem ricePb_eq (rm : BitVec 3) (hm : BitVec 8) :
    ricePb rm hm = BitVec.ofNat 32 (rm.toNat * hm.toNat / 4) ∧ rm.toNat * hm.toNat / 4 ≤ 446 := by
  have hprod : rm.toNat * hm.toNat ≤ 7 * 255 :=
    Nat.mul_le_mul (Nat.le_of_lt_succ rm.isLt) (Nat.le_of_lt_succ hm.isLt)
  have hword : (rm.setWidth 32 * hm.setWidth 32 : Word).toNat = rm.toNat * hm.toNat := by
    rw [BitVec.toNat_mul, BitVec.toNat_setWidth_of_le (by decide), BitVec.toNat_setWidth_of_le (by decide)]
    omega
  refine ⟨BitVec.eq_of_toInt_eq ?_, by omega⟩
  rw [ricePb, BitVec.toInt_sdiv_of_ne_or_ne _ _ (.inr (by decide)), toInt_of_lt (by omega), hword,
    show (4#32).toInt = 4 from rfl, Int.tdiv_eq_ediv_of_nonneg (by omega), toInt_of_lt, BitVec.toNat_ofNat,
    Nat.mod_eq_of_lt (by omega)]
  · omega
  · rw [BitVec.toNat_ofNat]
    omega

/-- The history as words (R158). -/
theorem historyAfter_eq (h d pb : Word) :
    historyAfter h d pb = if 0xFFFF < d.toInt then 0xFFFF#32 else h + d * pb - (h * pb).sshiftRight 9 := by
  rw [historyAfter, BitVec.slt_eq_decide]
  simp only [decide_eq_true_eq]
  rfl

/-- The history as numbers, where no product wraps. -/
theorem historyAfter_toNat {h d : Word} {pb : Nat} (hpb : pb ≤ 446) (hprod : h.toNat * pb < 2 ^ 31)
    (hsum : h.toNat + d.toNat * pb < 2 ^ 31) (hd : d.toNat < 2 ^ 31) :
    (historyAfter h d (BitVec.ofNat 32 pb)).toNat =
      if 0xFFFF < d.toNat then 0xFFFF else h.toNat + d.toNat * pb - h.toNat * pb / 512 := by
  have hpbword : (BitVec.ofNat 32 pb).toNat = pb := by
    rw [BitVec.toNat_ofNat]
    omega
  have hmul : (h * BitVec.ofNat 32 pb).toNat = h.toNat * pb := by
    rw [BitVec.toNat_mul, hpbword]
    omega
  have hmul' : (d * BitVec.ofNat 32 pb).toNat = d.toNat * pb := by
    rw [BitVec.toNat_mul, hpbword]
    omega
  have hshift : ((h * BitVec.ofNat 32 pb).sshiftRight 9).toNat = h.toNat * pb / 512 := by
    rw [BitVec.sshiftRight_eq_of_msb_false, BitVec.toNat_ushiftRight, hmul, Nat.shiftRight_eq_div_pow]
    rw [BitVec.msb_eq_decide, hmul]
    simpa using hprod
  have hless : h.toNat * pb / 512 ≤ h.toNat := by
    have := Nat.mul_le_mul_left h.toNat (hpb.trans (by decide : 446 ≤ 512))
    omega
  rw [historyAfter_eq, toInt_of_lt hd]
  by_cases hclamp : 0xFFFF < d.toNat
  · rw [if_pos (by omega), if_pos hclamp]
    rfl
  · rw [if_neg (by omega), if_neg hclamp, BitVec.toNat_sub, BitVec.toNat_add, hmul', hshift]
    omega

theorem codewordValue_one (mask : Word) (x : BitVec 4) (e : BitVec 32) :
    codewordValue 1 mask (.unary x e) = BitVec.ofNat 32 x.toNat := by
  rw [codewordValue, if_pos rfl, BitVec.ofNat_toNat]

theorem codewordValue_of_ne_one {k : Nat} (hk : k ≠ 1) (mask : Word) (x : BitVec 4) (e : BitVec 32) :
    codewordValue k mask (.unary x e) =
      BitVec.ofNat 32 x.toNat * (((1#32 <<< k) - 1#32) &&& mask) + BitVec.ofNat 32 (e.toNat - 1) := by
  rw [codewordValue, if_neg hk, BitVec.ofNat_toNat]
  dsimp only
  split
  case isTrue hbig =>
    have hbig : 1 < e.toNat := BitVec.lt_def.1 hbig
    rw [← BitVec.ofNat_sub_ofNat_of_le _ _ (by decide) hbig.le, BitVec.ofNat_toNat, BitVec.setWidth_eq]
  case isFalse hsmall =>
    have hsmall : ¬ 1 < e.toNat := fun h => hsmall (BitVec.lt_def.2 h)
    rw [Nat.sub_eq_zero_of_le (not_lt.1 hsmall), BitVec.add_zero]

/-! ### A codeword in its channel's run (R160 to R163) -/

theorem State.withResidual_eq (s : State) (c : Codeword) :
    s.withResidual c = s.storeValue (codewordValue s.nextK.toNat 0xFFFFFFFF#32 c + s.rice.signMod) := rfl

theorem State.withZeros_eq (s : State) (n : Nat) :
    s.withZeros n = (s.pushRes (List.replicate n 0#32)).setRice { s.rice with history := 0#32, signMod := 1#32 } := rfl

theorem nextValue_of_lt {s : State} (h : (s.ch s.chan).res.length < s.parser.n.toNat) :
    nextValue s = .ok () { s with stage := .residual } := if_pos h

theorem nextValue_of_ge {s : State} (h : s.parser.n.toNat ≤ (s.ch s.chan).res.length) : nextValue s = channelDone s :=
  if_neg (not_lt.2 h)

section Codeword

variable {s : State} {c : Codeword}

theorem residualBody_of_more (h : (s.ch s.chan).res.length + 1 < s.parser.n.toNat) :
    residualBody c s = .ok () { s.withResidual c with
      stage := if (s.withResidual c).rice.history.slt 128#32 then .zeroRun else .residual } := by
  obtain ⟨hlen, hchan, hn⟩ := s.length_stored
    [unzigzag (codewordValue s.nextK.toNat 0xFFFFFFFF#32 c + s.rice.signMod)] (s.withResidual c).rice
  have hlen' : ((s.withResidual c).ch s.chan).res.length < s.parser.n.toNat := by
    rw [← hchan]
    exact hlen.trans_lt h
  unfold residualBody
  dsimp only
  rw [← State.withResidual_eq]
  by_cases hzero : (s.withResidual c).rice.history.slt 128#32 = true
  · rw [if_pos ⟨hzero, hlen'⟩, if_pos hzero, State.goto, ← hchan]
    rfl
  · rw [if_neg fun h => hzero h.1, if_neg hzero, nextValue_of_lt]
    exact (hlen.trans_lt h).trans_eq (congrArg BitVec.toNat hn).symm

theorem residualBody_of_last (h : (s.ch s.chan).res.length + 1 = s.parser.n.toNat) :
    residualBody c s = channelDone (s.withResidual c) := by
  obtain ⟨hlen, hchan, hn⟩ := s.length_stored
    [unzigzag (codewordValue s.nextK.toNat 0xFFFFFFFF#32 c + s.rice.signMod)] (s.withResidual c).rice
  have hlen' : s.parser.n.toNat ≤ ((s.withResidual c).ch s.chan).res.length := by
    rw [← hchan]
    exact (h.symm.trans hlen.symm).le
  unfold residualBody
  dsimp only
  rw [← State.withResidual_eq, if_neg fun hmore => not_lt.2 hlen' hmore.2, nextValue_of_ge]
  rw [show (s.withResidual c).chan = s.chan from hchan, show (s.withResidual c).parser.n = s.parser.n from hn]
  exact hlen'

/-- A block length of at most 0xFFFF is a number of zeros. -/
theorem zeros_of_block {bs : Word} (h : bs.toNat < 2 ^ 31) : (if (0#32).slt bs then bs.toNat else 0) = bs.toNat := by
  rw [BitVec.slt_eq_decide]
  simp only [decide_eq_true_eq, BitVec.toInt_zero, toInt_of_lt h]
  split <;> omega

theorem zeroRunBody_of_fits (hblock : (s.blockLength c).toNat ≤ 0xFFFF)
    (h : (s.ch s.chan).res.length + (s.blockLength c).toNat ≤ s.parser.n.toNat) :
    zeroRunBody c s = nextValue (s.withZeros (s.blockLength c).toNat) := by
  have hsign : ¬ (0xFFFF#32).slt (s.blockLength c) = true := by
    rw [BitVec.slt_eq_decide, decide_eq_true_eq, show (0xFFFF#32).toInt = 0xFFFF from rfl, toInt_of_lt (by omega)]
    exact not_lt.2 (by exact_mod_cast hblock)
  have hvalue : codewordValue (zeroRunK s.rice.history).toNat s.zeroRunMask c = s.blockLength c := rfl
  unfold zeroRunBody
  dsimp only
  rw [hvalue, zeros_of_block (by omega), if_neg (fun hover => not_lt.2 h hover.2), if_neg hsign, State.withZeros_eq]

theorem zeroRunBody_of_overrun (hpos : 1 ≤ (s.blockLength c).toNat) (hblock : (s.blockLength c).toNat < 2 ^ 31)
    (h : s.parser.n.toNat < (s.ch s.chan).res.length + (s.blockLength c).toNat) :
    zeroRunBody c s = .raised .bufferOverrun s := by
  have hzeros := zeros_of_block hblock
  exact if_pos ⟨hpos.trans_eq hzeros.symm, h.trans_eq (by rw [← hzeros]; rfl)⟩

end Codeword

/-- What a codeword that completes a channel has stored, and that the channel is then done. -/
theorem CompletesChannel.done {s s' : State} {i : Instr} (h : CompletesChannel s i s') :
    exec i s = (channelDone s').outcome ∧ s'.chan = s.chan ∧ s'.parser = s.parser ∧ s'.outside = s.outside := by
  obtain ⟨c, rfl, hlen, rfl⟩ | ⟨c, rfl, hblock, hlen, rfl⟩ := h
  · refine ⟨?_, s.setCh_chan _ _, s.setCh_parser _ _, s.outside_setCh _ _⟩
    rw [exec_residualOf, residualBody_of_last hlen]
  · refine ⟨?_, s.setCh_chan _ _, s.setCh_parser _ _, s.outside_setCh _ _⟩
    obtain ⟨hlen', -, hn⟩ := s.length_stored (List.replicate (s.blockLength c).toNat 0#32)
      { s.rice with history := 0#32, signMod := 1#32 }
    rw [List.length_replicate, hlen, ← hn] at hlen'
    rw [exec, execZeroRun, zeroRunBody_of_fits hblock hlen.le, nextValue_of_ge]
    exact hlen'.ge

theorem State.codewordWidth_eq (s : State) : s.chanBits.toNat = s.codewordWidth := by
  unfold State.chanBits State.codewordWidth State.nch
  by_cases hcpe : s.parser.state = .cpe
  · simp only [hcpe, if_true]
    omega
  · simp only [hcpe, if_false]
    omega

theorem State.codewordWidth_congr {s t : State} (hcfg : t.cfg = s.cfg) (hparser : t.parser = s.parser) :
    t.codewordWidth = s.codewordWidth := by
  rw [State.codewordWidth, State.codewordWidth, hcfg, hparser]

/-- The prediction of a channel (R191, R247). -/
theorem reconstruct_eq (c : Ch) (s : State) :
    reconstruct c s = match (s.ch c).predicted s.codewordWidth with
      | none => .raised .malformedStream s
      | some r => .ok () (s.setCh c r) := by
  rw [← State.codewordWidth_eq, ← reconstructChan_eq_predicted]
  rfl

/-- The last channel of an element: prediction, then the end of the element. -/
theorem channelDone_of_last {s : State} (h : s.chan = .c1 ∨ s.nch = 1) :
    channelDone s = (reconstruct s.chan s).bind fun _ t => finishElement t := by
  unfold channelDone
  split
  case h_1 hchan =>
    have hnch : s.nch = 1 := h.resolve_left (by simp [hchan])
    rw [firstChannelDone, hchan, reconstruct_eq]
    cases (s.ch .c0).predicted s.codewordWidth with
    | none => rfl
    | some r => exact if_neg (by rw [State.setCh_nch, hnch]; decide)
  case h_2 hchan => rw [lastChannelDone, hchan]

/-- Channel 0 of a CPE with samples: prediction, then the run of channel 1. -/
theorem channelDone_of_first {s : State} (hchan : s.chan = .c0) (hnch : s.nch = 2) (hn : s.parser.n ≠ 0#32) :
    channelDone s = (reconstruct .c0 s).bind fun _ t => .ok () (t.initRun .c1) := by
  unfold channelDone
  rw [hchan, firstChannelDone, reconstruct_eq]
  cases (s.ch .c0).predicted s.codewordWidth with
  | none => rfl
  | some r =>
    dsimp only
    rw [Res.bind_ok, Res.bind_ok, if_pos (by rw [State.setCh_nch, hnch]), beginSecondRun, if_neg (by rwa [State.setCh_parser])]

/-! ### Skips (R99, R100, R252, R253) -/

/-- The end of a byte-aligned position is inside an input of whole bytes. -/
theorem State.align_le {s : State} (h : s.pos ≤ s.endPos) : (s.pos + 7) / 8 * 8 ≤ s.endPos := by
  unfold State.endPos at h ⊢
  omega

/-- What a skip to position p leaves. -/
def State.skippedTo (s : State) (p : Nat) : Host.Outcome State Fault Refusal :=
  if p ≤ s.endPos then
    .next { (s.cursorAt p) with parser := { s.parser with state := .fetchTag }, stage := .element, chan := .c0 }
  else .next ((s.cursorAt p).raiseError .malformedStream)

/-- A move forward in a skip, and then the next tag. -/
theorem advance_skip {s : State} {n : Nat} (st : ParserState) {q : Nat} (hpos : q < 2 ^ 34) (hlt : q + n < 2 ^ 34) :
    ((advance n ((s.setParser { s.parser with state := st }).cursorAt q)).bind fun _ t =>
      .ok () (t.atTag t.cursor)).outcome = s.skippedTo (q + n) := by
  have hq : ((s.setParser { s.parser with state := st }).cursorAt q).pos = q := State.cursorAt_pos _ (by omega)
  unfold State.skippedTo
  split
  case isTrue hin =>
    rw [advance_eq_ok (by rw [hq]; exact hin) (by rw [hq]; exact hlt), hq]
    rfl
  case isFalse hout =>
    rw [advance_eq_raised (by rw [hq]; exact not_le.1 hout) (by rw [hq]; omega), hq]
    rfl

theorem exec_gap (s : State) (cnt : BitVec 4) (ext : Option (BitVec 8)) :
    exec (.gap cnt ext) s = ((advance (8 * gapBytes cnt ext)
      ((s.setParser { s.parser with state := .gap }).cursorAt s.pos)).bind fun _ t => .ok () (t.atTag t.cursor)).outcome := by
  have hstart : (s.setParser { s.parser with state := .gap }).cursorAt s.pos = s.setParser { s.parser with state := .gap } :=
    State.cursorAt_self _
  rw [hstart]
  rfl

/-- The start of the bytes of a FILL. -/
def State.fillStart (s : State) (al : Bool) : Nat := if al then (s.pos + 7) / 8 * 8 else s.pos

theorem exec_fill {s : State} (inst : BitVec 4) {al : Bool} (cnt : BitVec 8) (ext : Option (BitVec 8))
    (hpos : s.pos ≤ s.endPos) (hlt : s.fillStart al < 2 ^ 34) :
    exec (.fill inst al cnt ext) s =
      ((advance (8 * fillBytes cnt ext) (s.inFill.cursorAt (s.fillStart al))).bind fun _ t =>
        .ok () (t.atTag t.cursor)).outcome := by
  have hstart : (if al then align s.inFill else .ok () s.inFill : Res Unit) = .ok () (s.inFill.cursorAt (s.fillStart al)) := by
    unfold State.fillStart at hlt ⊢
    split
    case isTrue hal =>
      rw [if_pos hal] at hlt
      rw [align_eq]
      exact checkEnd_cursorAt_of_le (State.align_le hpos) hlt
    case isFalse => exact congrArg (Res.ok ()) (State.cursorAt_self s.inFill).symm
  rw [exec, execFill, fillBody_eq, hstart, Res.bind_ok]

/-! ### The checks of an audio element (R239, R240, R242, R243) -/

/-- `UB` or chanBits is not that of a compressed element (R242, R243). -/
def State.BadWidth (s : State) : Prop :=
  s.parser.ub ≠ 0#2 ∧ s.cfg.bits.toNat < 24 ∨ s.chanBits < 1 ∨ 32 < s.chanBits

theorem compressedBody_of_badWidth {s : State} (h : s.BadWidth) : compressedBody s = .raised .malformedStream s := by
  rw [compressedBody_eq]
  by_cases hub : s.parser.ub ≠ 0#2 ∧ s.cfg.bits.toNat < 24
  · rw [require_of_eq_false (by simpa using hub)]
    rfl
  · have hbits : ¬ (1 ≤ s.chanBits ∧ s.chanBits ≤ 32) := by
      have := h.resolve_left hub
      omega
    rw [require_of_eq_true (by simpa [or_iff_not_imp_left] using hub), Res.bind_ok, require_of_eq_false (by simpa using hbits)]
    rfl

theorem compressedBody_of_width {s : State} (h : ¬ s.BadWidth) :
    compressedBody s = (readBits 8 s).bind fun shift t => (readBits 8 t).bind fun weight t =>
      mixChecks (shift.setWidth 8) (weight.setWidth 8) t := by
  obtain ⟨hub, hbits⟩ := not_or.1 h
  have hbits' : 1 ≤ s.chanBits ∧ s.chanBits ≤ 32 := by omega
  rw [compressedBody_eq, require_of_eq_true (by simpa [or_iff_not_imp_left] using hub), Res.bind_ok, require_of_eq_true (by simpa using hbits'),
    Res.bind_ok]

theorem State.withHeader_chanBits {s : State} {st : ParserState} {h : AudioHeader} {nch : Nat}
    (hnch : (s.withHeader st h).nch = nch) :
    (s.withHeader st h).chanBits = (s.cfg.bits.toNat : Int) - 8 * h.ub.toNat + (nch - 1) := by
  rw [State.chanBits, hnch]
  rfl

/-! ### The mix fields (R203, R244) -/

/-- The mix fields are illegal, or `CFG_KMOD` is (R203, R244). -/
def BadMix (nch shift weight kmod : Nat) : Prop := (nch = 2 ∧ (128 ≤ weight ∨ weight ≠ 0 ∧ 32 ≤ shift)) ∨ 32 ≤ kmod

theorem mixLegal_iff (nch : Nat) (shift weight : BitVec 8) :
    mixLegal nch shift weight = true ↔
      ¬ (nch = 2 ∧ (128 ≤ weight.toNat ∨ weight.toNat ≠ 0 ∧ 32 ≤ shift.toNat)) := by
  have hzero : weight = 0#8 ↔ weight.toNat = 0 := BitVec.toNat_eq
  simp only [mixLegal, Bool.or_eq_true, Bool.and_eq_true, bne_iff_ne, beq_iff_eq, decide_eq_true_eq, hzero]
  omega

theorem mixChecks_of_bad {s : State} {shift weight : BitVec 8}
    (h : BadMix s.nch shift.toNat weight.toNat s.cfg.kmod.toNat) :
    mixChecks shift weight s = .raised .malformedStream (s.withMix shift weight) := by
  unfold mixChecks
  by_cases hmix : mixLegal s.nch shift weight = true
  · have hkmod := h.resolve_left ((mixLegal_iff _ _ _).1 hmix)
    rw [hmix, require_true, Res.bind_ok,
      require_of_eq_false (c := decide ((s.withMix shift weight).cfg.kmod.toNat < 32)) (decide_eq_false (not_lt.2 hkmod))]
    rfl
  · rw [require_of_eq_false (Bool.eq_false_iff.2 hmix)]
    rfl

theorem mixChecks_of_good {s : State} {shift weight : BitVec 8}
    (h : ¬ BadMix s.nch shift.toNat weight.toNat s.cfg.kmod.toNat) :
    mixChecks shift weight s = .ok () ((s.withMix shift weight).goto .predictor .c0) := by
  obtain ⟨hmix, hkmod⟩ := not_or.1 h
  unfold mixChecks
  rw [(mixLegal_iff _ _ _).2 hmix, require_true, Res.bind_ok,
    require_of_eq_true (c := decide ((s.withMix shift weight).cfg.kmod.toNat < 32)) (decide_eq_true (not_le.1 hkmod)),
    Res.bind_ok]

theorem State.streamWord_setWidth (s : State) (p n : Nat) (hn : n ≤ 32) :
    (s.streamWord p n).setWidth n = BitVec.ofNat n (s.streamNat p n) := by
  rw [State.streamWord, BitVec.setWidth_ofNat_of_le hn]

theorem State.toNat_ofNat_streamNat (s : State) (p n : Nat) : (BitVec.ofNat n (s.streamNat p n)).toNat = s.streamNat p n := by
  rw [BitVec.toNat_ofNat, Nat.mod_eq_of_lt (s.streamNat_lt p n)]

/-- The two mix fields inside the input. -/
theorem compressedBody_of_canRead {s : State} (h : ¬ s.BadWidth) (hcan : s.CanRead 16) :
    compressedBody s = mixChecks (BitVec.ofNat 8 (s.streamNat s.pos 8)) (BitVec.ofNat 8 (s.streamNat (s.pos + 8) 8))
      (s.cursorAt (s.pos + 16)) := by
  rw [compressedBody_of_width h, readBits_eq_ok (by decide) (hcan.mono (by decide)), Res.bind_ok,
    readBits_cursorAt_eq_ok (m := 8) (by decide) hcan, Res.bind_ok, State.streamWord_setWidth _ _ _ (by decide),
    State.streamWord_setWidth _ _ _ (by decide), Nat.add_assoc]

/-- Mix fields that run past the end of the input. -/
theorem compressedBody_raised {s : State} (h : ¬ s.BadWidth) (hr : s.InputReadable) (hpos : s.pos ≤ s.endPos)
    (hmax : s.endPos < 2 ^ 34) (hend : s.endPos < s.pos + 16) :
    compressedBody s = .raised .malformedStream
      (s.cursorAt (if s.endPos < s.pos + 8 then s.pos + 8 else s.pos + 16)) := by
  rw [compressedBody_of_width h]
  split
  case isTrue hfirst =>
    rw [readBits_eq_raised (by decide) hr hpos hmax hfirst, if_neg (by omega)]
    rfl
  case isFalse hsecond =>
    have hmid : (s.cursorAt (s.pos + 8)).pos = s.pos + 8 := State.cursorAt_pos _ (by omega)
    rw [readBits_eq_ok (by decide) ⟨hr, by omega, by omega⟩, Res.bind_ok,
      readBits_eq_raised (s := s.cursorAt (s.pos + 8)) (by decide) hr (by rw [hmid]; exact not_lt.1 hsecond) hmax
        (by rw [hmid]; exact hend), if_neg (by omega), hmid]
    rfl

/-! ### The input and the cursor where only the decoder's registers differ -/

theorem State.streamNat_of_outside {s u : State} (h : u.outside = s.outside) (p n : Nat) : u.streamNat p n = s.streamNat p n := by
  obtain ⟨-, hport, hmem, -⟩ := State.outside_eq_iff.1 h
  induction n with
  | zero => rfl
  | succ n ih =>
    rw [State.streamNat, State.streamNat, ih, State.streamBit, State.streamBit, State.inByte, State.inByte, hport, hmem]

theorem State.streamWord_of_outside {s u : State} (h : u.outside = s.outside) (p n : Nat) :
    u.streamWord p n = s.streamWord p n := by
  rw [State.streamWord, State.streamWord, State.streamNat_of_outside h]

theorem State.endPos_of_outside {s u : State} (h : u.outside = s.outside) : u.endPos = s.endPos := by
  obtain ⟨-, hport, -⟩ := State.outside_eq_iff.1 h
  rw [State.endPos, State.endPos, hport]

theorem State.InputReadable.of_outside {s u : State} (hr : s.InputReadable) (h : u.outside = s.outside) : u.InputReadable := by
  obtain ⟨-, hport, hmem, -⟩ := State.outside_eq_iff.1 h
  unfold State.InputReadable
  rwa [hport, hmem]

/-! ### Reading one item after another -/

/-- n items, one after another. -/
def repeatRead {α : Type} (item : State → Res α) : Nat → State → Res (List α)
  | 0, s => .ok [] s
  | n + 1, s => (item s).bind fun a t => (repeatRead item n t).bind fun l u => .ok (a :: l) u

/-- The read runs past the end at position p, by a part of 16 bits at the most, and not past its own bits. -/
def Res.RunsPast {α : Type} (s : State) (q : Nat) (r : Res α) : Prop :=
  ∃ p, s.endPos < p ∧ p ≤ s.endPos + 16 ∧ p ≤ q ∧ r = .raised .malformedStream (s.cursorAt p)

theorem Res.RunsPast.bind {α β : Type} {s : State} {q : Nat} {r : Res α} (h : r.RunsPast s q) (g : α → State → Res β) :
    (r.bind g).RunsPast s q := by
  obtain ⟨p, hpast, hnear, hle, rfl⟩ := h
  exact ⟨p, hpast, hnear, hle, rfl⟩

theorem Res.RunsPast.mono {α : Type} {s : State} {q q' : Nat} {r : Res α} (h : r.RunsPast s q) (hq : q ≤ q') :
    r.RunsPast s q' := by
  obtain ⟨p, hpast, hnear, hle, hr⟩ := h
  exact ⟨p, hpast, hnear, hle.trans hq, hr⟩

/-- An item of w bits: its value at each position inside the input, and where it fails at the end. -/
structure ReadsItem {α : Type} (s : State) (item : State → Res α) (w : Nat) (value : Nat → α) : Prop where
  ok : ∀ p, p + w ≤ s.endPos → p + w < 2 ^ 34 → item (s.cursorAt p) = .ok (value p) (s.cursorAt (p + w))
  raised : ∀ p, s.endPos < 2 ^ 34 → p ≤ s.endPos → s.endPos < p + w → (item (s.cursorAt p)).RunsPast s (p + w)

section Repeat

variable {α : Type} {s : State} {item : State → Res α} {w n p : Nat} {value : Nat → α} (h : ReadsItem s item w value)

include h

theorem repeatRead_eq_ok (hend : p + n * w ≤ s.endPos) (hlt : p + n * w < 2 ^ 34) :
    repeatRead item n (s.cursorAt p) = .ok ((List.range n).map fun j => value (p + j * w)) (s.cursorAt (p + n * w)) := by
  induction n generalizing p with
  | zero => simp [repeatRead]
  | succ n ih =>
    have hsplit : p + (n + 1) * w = p + w + n * w := by ring
    have hrest (j : Nat) : p + w + j * w = p + (j + 1) * w := by ring
    rw [hsplit] at hend hlt ⊢
    rw [repeatRead, h.ok p (by omega) (by omega), Res.bind_ok, ih hend hlt, Res.bind_ok, List.range_succ_eq_map,
      List.map_cons, List.map_map]
    simp only [hrest, Function.comp_def, Nat.zero_mul, Nat.add_zero]

theorem repeatRead_raised (hmax : s.endPos < 2 ^ 34) (hin : p ≤ s.endPos) (hend : s.endPos < p + n * w) :
    (repeatRead item n (s.cursorAt p)).RunsPast s (p + n * w) := by
  induction n generalizing p with
  | zero => omega
  | succ n ih =>
    have hsplit : p + (n + 1) * w = p + w + n * w := by ring
    rw [hsplit] at hend ⊢
    rw [repeatRead]
    by_cases hfirst : s.endPos < p + w
    · exact ((h.raised p hmax hin hfirst).mono (by omega)).bind _
    · rw [h.ok p (by omega) (by omega), Res.bind_ok]
      exact (ih (by omega) hend).bind _

theorem repeatRead_of_canRead (hcan : s.CanRead (n * w)) :
    repeatRead item n s = .ok ((List.range n).map fun j => value (s.pos + j * w)) (s.cursorAt (s.pos + n * w)) := by
  have hread := repeatRead_eq_ok h hcan.2.1 hcan.2.2
  rwa [State.cursorAt_self] at hread

theorem repeatRead_runsPast (hpos : s.pos ≤ s.endPos) (hmax : s.endPos < 2 ^ 34) (hend : s.endPos < s.pos + n * w) :
    (repeatRead item n s).RunsPast s (s.pos + n * w) := by
  have hread := repeatRead_raised h hmax hpos hend
  rwa [State.cursorAt_self] at hread

end Repeat

/-! ### The samples of a not-compressed SCE or LFE (R248, R249) -/

/-- One sample time of a mono element; the second value of the pair is of no use. -/
def monoSample (size : Nat) (bug : Bool) (s : State) : Res (Word × Word) :=
  (rawSample size s).bind fun a t => .ok (a, if bug then a else 0#32) t

theorem rawSamples_one_eq (size : Nat) (bug : Bool) (n : Nat) (s : State) :
    rawSamples 1 size bug n s = repeatRead (monoSample size bug) n s := by
  induction n generalizing s with
  | zero => rfl
  | succ n ih =>
    rw [repeatRead, monoSample, Res.bind_assoc]
    simp only [Res.bind_ok, ← ih]
    rfl

theorem monoSample_reads {s : State} {size : Nat} (bug : Bool) (hsize : size ≤ 32) (hr : s.InputReadable) :
    ReadsItem s (monoSample size bug) size fun p =>
      (sext size (s.streamWord p size), if bug then sext size (s.streamWord p size) else 0#32) where
  ok p hend hlt := by rw [monoSample, rawSample_cursorAt_eq_ok hsize hr hend hlt, Res.bind_ok]
  raised p hmax hin hend := by
    have hraised : (rawSample size (s.cursorAt p)).RunsPast s (p + size) := rawSample_cursorAt_raised hsize hr hmax hin hend
    exact hraised.bind _

/-! ### The low-bit planes (R246) -/

/-- The low-bit values of one sample time. -/
def lowGroup (nch width : Nat) (s : State) : Res (Word × Word) :=
  (readBits width s).bind fun a t =>
    (if nch = 2 then readBits width t else .ok 0#32 t : Res Word).bind fun b u => .ok (a, b) u

theorem lowPlanes_eq (nch width n : Nat) (s : State) : lowPlanes nch width n s = repeatRead (lowGroup nch width) n s := by
  induction n generalizing s with
  | zero => rfl
  | succ n ih =>
    rw [repeatRead, lowGroup, Res.bind_assoc, lowPlanes]
    congr 1
    funext a t
    rw [Res.bind_assoc]
    congr 1
    funext b u
    rw [Res.bind_ok, ih]

theorem readBits_runsPast {s : State} {p n : Nat} (hn : n ≤ 32) (hr : s.InputReadable) (hmax : s.endPos < 2 ^ 34)
    (hin : p ≤ s.endPos) (hend : s.endPos < p + n) : (readBits n (s.cursorAt p)).RunsPast s (p + n) := by
  have hpos : (s.cursorAt p).pos = p := State.cursorAt_pos _ (by omega)
  have hread := readBits_eq_raised (s := s.cursorAt p) hn hr (hpos.trans_le hin) hmax (by rwa [hpos])
  rw [hpos, State.cursorAt_endPos] at hread
  exact ⟨_, by split <;> omega, by split <;> omega, by split <;> omega, hread⟩

theorem lowGroup_reads {s : State} {nch width : Nat} (hnch : nch = 1 ∨ nch = 2) (hwidth : width ≤ 32)
    (hr : s.InputReadable) :
    ReadsItem s (lowGroup nch width) (nch * width) fun p =>
      (s.streamWord p width, if nch = 2 then s.streamWord (p + width) width else 0#32) := by
  obtain rfl | rfl := hnch
  · rw [one_mul]
    constructor
    · intro p hend hlt
      rw [lowGroup, readBits_cursorAt_of_inside hwidth hr hend hlt]
      rfl
    · intro p hmax hin hend
      exact (readBits_runsPast hwidth hr hmax hin hend).bind _
  · constructor
    · intro p hend hlt
      rw [lowGroup, readBits_cursorAt_of_inside hwidth hr (by omega) (by omega), Res.bind_ok, if_pos rfl,
        readBits_cursorAt_of_inside hwidth hr (by omega) (by omega), Res.bind_ok, if_pos rfl, Nat.add_assoc, ← two_mul]
    · intro p hmax hin hend
      rw [lowGroup]
      by_cases hfirst : s.endPos < p + width
      · exact ((readBits_runsPast hwidth hr hmax hin hfirst).mono (by omega)).bind _
      · rw [readBits_cursorAt_of_inside hwidth hr (by omega) (by omega), Res.bind_ok, if_pos rfl]
        exact ((readBits_runsPast hwidth hr hmax (by omega) (by omega)).mono (by omega)).bind _

/-! ### Where the bytes of a mono element stand (R204, R214) -/

/-- The bytes of one channel are at different addresses, whatever its slot. -/
theorem State.sampleAddr_add_inj_same {s : State} {i j c k l : Nat} (hcfg : s.cfg.Legal) (hch : 1 ≤ s.cfg.numCh.toNat)
    (hi : i < s.cfg.maxSamples.toNat) (hj : j < s.cfg.maxSamples.toNat) (hk : k < s.bps) (hl : l < s.bps)
    (h : s.sampleAddr i c + BitVec.ofNat 32 k = s.sampleAddr j c + BitVec.ofNat 32 l) : i = j ∧ k = l := by
  obtain ⟨hmax, hch8⟩ := hcfg.bounds
  have hbps : s.bps ≤ 4 := bytesPerSample_le_four _
  have hslot : s.slot c < 16 := (s.port.chmap.extractLsb' (4 * c) 4).isLt
  have hlt {i k : Nat} (hi : i < s.cfg.maxSamples.toNat) (hk : k < s.bps) :
      (i * s.cfg.numCh.toNat + s.slot c) * s.bps + k < 2 ^ 32 := by
    have h1 : i * s.cfg.numCh.toNat ≤ 16364 * 8 := Nat.mul_le_mul (by omega) hch8
    have h2 : (i * s.cfg.numCh.toNat + s.slot c) * s.bps ≤ (16364 * 8 + 16) * 4 := Nat.mul_le_mul (by omega) hbps
    omega
  rw [State.sampleAddr_add, State.sampleAddr_add, BitVec.add_right_inj] at h
  have hoffset := congrArg BitVec.toNat h
  rw [BitVec.toNat_ofNat, BitVec.toNat_ofNat, Nat.mod_eq_of_lt (hlt hi hk), Nat.mod_eq_of_lt (hlt hj hl)] at hoffset
  obtain ⟨hsample, hkl⟩ := eq_and_eq_of_mul_add_eq hk hl hoffset
  exact ⟨Nat.eq_of_mul_eq_mul_right hch (Nat.add_right_cancel hsample), hkl⟩

theorem State.frameBytes_of_mono {s : State} (h : s.parser.state ≠ .cpe) (i : Nat) :
    s.frameBytes i = s.sampleBytes i s.parser.ci (scratchAt s.ch0.smp i) (scratchAt s.ch0.low i) := by
  rw [State.frameBytes, State.channelValues_of_mono h, State.lowValues_of_mono h]
  simp

/-- Each byte of a mono element is read back. -/
theorem State.read_mono {s : State} {m m' : Memory} (hcfg : s.cfg.Legal) (hch : 1 ≤ s.cfg.numCh.toNat)
    (hmono : s.parser.state ≠ .cpe) (hn : s.parser.n.toNat ≤ s.cfg.maxSamples.toNat)
    (hw : m.writeAll s.elementBytes = some m') {i k : Nat} (hi : i < s.parser.n.toNat) (hk : k < s.bps) :
    m'.read (s.sampleAddr i s.parser.ci + BitVec.ofNat 32 k) =
      some ((containerValue s.cfg.bits s.parser.ub (scratchAt s.ch0.smp i) (scratchAt s.ch0.low i)).extractLsb' (8 * k) 8) := by
  refine Memory.read_writeAll_flatMap hw (List.getElem?_range hi) (fun m₁ m₂ hwrite => ?_) ?_
  · rw [State.frameBytes_of_mono hmono, State.sampleBytes_eq_flatMap] at hwrite
    refine Memory.read_writeAll_flatMap hwrite (List.getElem?_range hk) (fun _ _ => Memory.read_writeAll_singleton) ?_
    intro l hl hkl w hmem haddr
    rw [List.length_range] at hl
    rw [List.getElem_range, List.mem_singleton] at hmem
    rw [hmem] at haddr
    obtain ⟨-, rfl⟩ := State.sampleAddr_add_inj_same hcfg hch (hi.trans_le hn) (hi.trans_le hn) hl hk haddr
    exact hkl.false
  · intro j hj hij w hmem haddr
    rw [List.length_range] at hj
    rw [List.getElem_range, State.frameBytes_of_mono hmono] at hmem
    obtain ⟨l, hl, hwl⟩ := State.mem_sampleBytes hmem
    rw [haddr] at hwl
    obtain ⟨rfl, -⟩ := State.sampleAddr_add_inj_same hcfg hch (hi.trans_le hn) (hj.trans_le hn) hk hl hwl
    exact hij.false

/-! ### A not-compressed SCE or LFE (R248) -/

/-- The state of a not-compressed mono element before it writes its output: its samples read, up to position q. -/
def State.afterMono (s : State) (h : AudioHeader) (q : Nat) (l : List Word) : State :=
  { (s.withHeader .sce h).unmixed.cursorAt q with ch0 := { s.ch0 with smp := l } }

section Mono

variable {s : State} {h : AudioHeader} {i : Instr} {size n : Nat} (hi : i = .sce h ∨ i = .lfe h) (hesc : h.esc = true)
  (hcount : (h.count.getD s.cfg.maxSamples).toNat ≤ s.cfg.maxSamples.toNat)
  (hch : s.parser.ci + 1 ≤ s.cfg.numCh.toNat) (hn : (h.count.getD s.cfg.maxSamples).toNat = n)
  (hbits : s.cfg.bits.toNat = size) (hsize : size ≤ 32)

include hi hesc hcount hch hn hbits

theorem exec_mono_of_escaped :
    exec i s = ((repeatRead (monoSample size (escBugOn s.params.escBug size)) n (s.withHeader .sce h).unmixed).bind
      fun l t => finishElement (t.storeSamples l)).outcome := by
  have hform : (i, ParserState.sce, 1) ∈ audioForms h := by
    obtain rfl | rfl := hi <;> simp [audioForms]
  rw [(exec_of_audioForms hform s).1, audioBody_of_checks (st := .sce) hcount hch, if_pos hesc, escapedBody_eq, ← rawSamples_one_eq]
  subst hn hbits
  rfl

include hsize

theorem exec_mono_of_canRead (hcan : s.CanRead (n * size)) :
    exec i s = (finishElement (s.afterMono h (s.pos + n * size)
      ((List.range n).map fun j => sext size (s.streamWord (s.pos + j * size) size)))).outcome := by
  have hout : (s.withHeader .sce h).unmixed.outside = s.outside := rfl
  have hread := repeatRead_of_canRead (n := n)
    (monoSample_reads (s := (s.withHeader .sce h).unmixed) (escBugOn s.params.escBug size) hsize hcan.1) hcan
  rw [exec_mono_of_escaped hi hesc hcount hch hn hbits, hread, Res.bind_ok]
  simp only [State.streamWord_of_outside hout]
  congr 2
  refine (if_neg (show ¬ 1 = 2 by decide)).trans ?_
  rw [List.map_map]
  rfl

theorem exec_mono_raised (hr : s.InputReadable) (hpos : s.pos ≤ s.endPos) (hmax : s.endPos < 2 ^ 34)
    (hend : s.endPos < s.pos + n * size) :
    ∃ q, s.endPos < q ∧ q ≤ s.endPos + 16 ∧ q ≤ s.pos + n * size ∧
      exec i s = .next ((s.cursorAt q).raiseError .malformedStream) := by
  obtain ⟨q, hpast, hnear, hle, hread⟩ := repeatRead_runsPast (n := n)
    (monoSample_reads (s := (s.withHeader .sce h).unmixed) (escBugOn s.params.escBug size) hsize hr) hpos hmax hend
  refine ⟨q, hpast, hnear, hle, ?_⟩
  rw [exec_mono_of_escaped hi hesc hcount hch hn hbits, hread]
  rfl

end Mono

end Sys2Proof.Machine

namespace Sys2Proof.Proofs
open Sys2Proof.Machine

/-- Settles O38: the words of R157 and R158 as numbers, and the value of a codeword by its kind and parameter. -/
theorem riceArithmetic : Obligations.RiceArithmetic := by
  refine ⟨fun d hd => unzigzag_toInt hd, fun h d rm hm => ?_, fun k mask v x e =>
    ⟨rfl, codewordValue_one mask x e, fun hk => codewordValue_of_ne_one hk mask x e⟩⟩
  obtain ⟨hpb, hle⟩ := ricePb_eq rm hm
  rw [hpb]
  exact ⟨fun hprod hsum _ hd => historyAfter_toNat hle hprod hsum hd, historyAfter_eq _ _ _⟩

/-- Settles O39: with another value to come the run goes on, with a zero run after a short history. -/
theorem residualStored : Obligations.ResidualStored := by
  intro s c h
  rw [exec_residualOf, residualBody_of_more h, Res.outcome_ok]

/-- Settles O40: a run of zeros that leaves a value to come, and one that passes the last value. -/
theorem zeroRunStored : Obligations.ZeroRunStored := by
  intro s c bs
  refine ⟨fun hblock hlt => ?_, fun hpos hblock hover => ?_⟩
  · obtain ⟨hlen, -, hn⟩ := s.length_stored (List.replicate bs 0#32) { s.rice with history := 0#32, signMod := 1#32 }
    rw [List.length_replicate] at hlen
    rw [exec, execZeroRun, zeroRunBody_of_fits hblock hlt.le, nextValue_of_lt, Res.outcome_ok]
    exact (hlen.trans_lt hlt).trans_eq (congrArg BitVec.toNat hn).symm
  · rw [exec, execZeroRun, zeroRunBody_of_overrun hpos hblock hover, Res.outcome_raised]

/-- Settles O41: the channel is done, and it is the element's last. -/
theorem lastResidualEndsElement : Obligations.LastResidualEndsElement := by
  intro s i s' hdone hlast hserved
  obtain ⟨hexec, hchan, hparser, hout⟩ := hdone.done
  obtain ⟨hcfg, -, hmem, -⟩ := State.outside_eq_iff.1 hout
  have hnch : s'.nch = s.nch := State.nch_congr (by rw [hparser])
  rw [hexec, channelDone_of_last (by rwa [hchan, hnch]), hchan, reconstruct_eq, State.codewordWidth_congr hcfg hparser]
  cases (s'.ch s.chan).predicted s.codewordWidth with
  | none => rfl
  | some r =>
    obtain ⟨m, hm, hfinish⟩ := finishElement_of_served (s := s'.setCh s.chan r) (by rw [State.setCh_mem, hmem, hserved])
    rw [State.setCh_parser, State.setCh_nch, hparser, hnch] at hfinish
    exact ⟨m, hm, hfinish, by rw [Res.bind_ok, hfinish, Res.outcome_ok]⟩

/-- Settles O42: the channel is done, and it is the first of two. -/
theorem firstChannelThenSecond : Obligations.FirstChannelThenSecond := by
  intro s i s' hdone hc0 hcpe hn
  obtain ⟨hexec, hchan, hparser, hout⟩ := hdone.done
  obtain ⟨hcfg, -⟩ := State.outside_eq_iff.1 hout
  have hnch : s'.nch = 2 := (State.nch_eq_two_iff s').2 (by rw [hparser, hcpe])
  rw [hexec, channelDone_of_first (hchan.trans hc0) hnch (by rwa [hparser]), reconstruct_eq,
    State.codewordWidth_congr hcfg hparser, State.ch_c0]
  cases s'.ch0.predicted s.codewordWidth with
  | none => rfl
  | some r =>
    rw [← hcfg]
    rfl

/-- Settles O50: both skips are a move forward by their bytes, FILL's from its start. -/
theorem skipElements : Obligations.SkipElements := by
  constructor
  · intro s cnt ext e p hpos hlt
    have hbytes : gapBytes cnt e = if cnt = 15#4 then 15 + ext.toNat - 1 else cnt.toNat := by
      simp only [gapBytes, e]
      split <;> simp [*]
    have hp : s.pos + 8 * gapBytes cnt e = p := by rw [hbytes]
    rw [exec_gap, advance_skip .gap (by omega) (by omega), hp]
    rfl
  · intro s inst al cnt ext e q p hpos hlt
    have hbytes : fillBytes cnt e = if cnt = 255#8 then 255 + ext.toNat else cnt.toNat := by
      simp only [fillBytes, e]
      split <;> simp [*]
    have hp : s.fillStart al + 8 * fillBytes cnt e = p := by
      rw [hbytes]
      rfl
    rw [exec_fill inst cnt e hpos (by omega), State.inFill, advance_skip .fill (by omega) (by omega), hp]
    rfl

/-- Settles O52: the checks in their order. -/
theorem audioHeaderChecks : Obligations.AudioHeaderChecks := by
  intro s h i st nch hi n
  obtain ⟨hexec, hnch⟩ := exec_of_audioForms hi s
  rw [hexec]
  refine ⟨fun hover => ?_, fun hcount hch => ?_, fun hcount hch hesc hbad => ?_⟩
  · obtain ⟨p, hraised⟩ := audioBody_of_overrun (st := st) hover
    rw [hraised, Res.outcome_raised, State.raiseError_setParser]
  · obtain ⟨p, hraised⟩ := audioBody_of_channels (st := st) hcount (hch.trans_eq (by rw [hnch]))
    rw [hraised, Res.outcome_raised, State.raiseError_setParser]
  · have hwidth : (s.withHeader st h).BadWidth := by
      rw [State.BadWidth, State.withHeader_chanBits hnch]
      exact hbad
    rw [audioBody_of_checks hcount (by rwa [hnch]), if_neg (by simp [hesc]), compressedBody_of_badWidth hwidth]
    rfl

/-- Settles O53: the two mix fields are read, and their checks pass or raise. -/
theorem compressedElementBegins : Obligations.CompressedElementBegins := by
  intro s h i st nch hi n cb bytes shift weight hesc hcount hch hub hlow hhigh
  obtain ⟨hexec, hnch⟩ := exec_of_audioForms hi s
  have hwidth : ¬ (s.withHeader st h).BadWidth := by
    rw [State.BadWidth, State.withHeader_chanBits hnch, not_or, not_or, not_and_or, not_lt, not_lt, not_lt, not_not]
    exact ⟨hub, hlow, hhigh⟩
  have hbody : exec i s = (compressedBody (s.withHeader st h)).outcome := by
    rw [hexec, audioBody_of_checks hcount (by rwa [hnch]), if_neg (by simp [hesc])]
  refine ⟨fun hr hpos hmax hend => ?_, fun hcan => ?_⟩
  · rw [hbody, compressedBody_raised hwidth hr hpos hmax hend]
    rfl
  · have hshift : (s.withHeader st h).streamNat s.pos 8 = shift := State.setParser_streamNat _ _ _ _
    have hweight : (s.withHeader st h).streamNat (s.pos + 8) 8 = weight := State.setParser_streamNat _ _ _ _
    have hpos : (s.withHeader st h).pos = s.pos := rfl
    rw [hbody, compressedBody_of_canRead hwidth hcan, hpos, hshift, hweight]
    have hshift8 : (BitVec.ofNat 8 shift).toNat = shift := s.toNat_ofNat_streamNat s.pos 8
    have hweight8 : (BitVec.ofNat 8 weight).toNat = weight := s.toNat_ofNat_streamNat (s.pos + 8) 8
    have hbad : BadMix ((s.withHeader st h).cursorAt (s.pos + 16)).nch (BitVec.ofNat 8 shift).toNat
        (BitVec.ofNat 8 weight).toNat s.cfg.kmod.toNat ↔
        (nch = 2 ∧ (128 ≤ weight ∨ weight ≠ 0 ∧ 32 ≤ shift)) ∨ 32 ≤ s.cfg.kmod.toNat := by
      have hnch' : ((s.withHeader st h).cursorAt (s.pos + 16)).nch = nch := hnch
      rw [hnch', hshift8, hweight8]
      rfl
    split
    case isTrue h => rw [mixChecks_of_bad (hbad.2 h)]; rfl
    case isFalse h =>
      rw [mixChecks_of_good (mt hbad.1 h), ← hesc]
      rfl

/-- Settles O54: the samples are read one after another, past the end at one of them or all there; then the end of the element
writes them. -/
theorem rawMonoElement : Obligations.RawMonoElement := by
  intro s h i hi hesc hcfg hconfigured n size bytes hn hch
  have hsize : size ≤ 32 := hcfg.bits_le
  refine ⟨fun hr hpos hmax hend => ?_, fun hserved hcan => ?_⟩
  · obtain ⟨p, hpast, hnear, hle, hexec⟩ := exec_mono_raised hi hesc hn hch rfl rfl hsize hr hpos hmax hend
    exact ⟨p, hpast, hnear, hle, hexec, rfl⟩
  · have hexec := exec_mono_of_canRead hi hesc hn hch rfl rfl hsize hcan
    generalize hl : (List.range n.toNat).map (fun j => sext size (s.streamWord (s.pos + j * size) size)) = l at hexec
    obtain ⟨m, hwritten, hfinish⟩ := finishElement_of_served (s := s.afterMono h (s.pos + n.toNat * size) l) hserved
    refine ⟨_, hexec.trans (congrArg Res.outcome hfinish), rfl, ?_, ?_, rfl, rfl, rfl, rfl, rfl, fun j hj k hk => ?_⟩
    · have hlt := hcan.2.2
      exact State.cursorAt_pos (s.withHeader .sce h).unmixed (by omega)
    · change Parser.mk _ _ _ _ _ h.esc _ _ _ = _
      rw [hesc]
      rfl
    · have hsample : scratchAt l j = sext size (s.streamWord (s.pos + j * size) size) := by
        refine scratchAt_of_getElem? ?_
        rw [← hl, List.getElem?_map, List.getElem?_range hj]
        rfl
      rw [← State.sampleAddr_add, ← hsample, ← containerValue_of_ub_zero _ _ (scratchAt s.ch0.low j)]
      exact State.read_mono (s := s.afterMono h (s.pos + n.toNat * size) l) hcfg
        (show 1 ≤ s.cfg.numCh.toNat by omega) nofun hn hwritten hj hk

end Sys2Proof.Proofs
end

section
/-! Predictor headers (family 46): the load, the low-bit planes, the start of the run, and an element of no samples. -/

namespace Sys2Proof.Machine

theorem beginFirstRun_of_samples {s : State} (h : s.parser.n ≠ 0#32) : beginFirstRun s = .ok () (s.initRun .c0) := if_neg h

/-! ### An element of no samples (R160, R239) -/

theorem fir_nil (cb n q : Nat) (coef : List Word) : fir cb n q [] coef = some ([], coef) := rfl

/-- The prediction of a channel with no residuals does not raise. -/
theorem reconstructChan_nil (cb : Nat) {r : ChanRegs} (h : r.res = []) : ∃ r', reconstructChan cb r = some r' := by
  unfold reconstructChan
  rw [h, fir_nil]
  by_cases hmode : r.mode = 0#4
  · rw [if_pos hmode]
    exact ⟨_, rfl⟩
  · rw [if_neg hmode]
    exact ⟨_, rfl⟩

theorem reconstruct_nil {c : Ch} {s : State} (h : (s.ch c).res = []) : ∃ r, reconstruct c s = .ok () (s.setCh c r) := by
  obtain ⟨r, hr⟩ := reconstructChan_nil s.chanBits.toNat h
  exact ⟨r, by rw [reconstruct, hr]⟩

/-- An element of no samples writes nothing. -/
theorem finishElement_of_zero {s : State} (h : s.parser.n = 0#32) : finishElement s = .ok () (s.elementDone s.mem) := by
  have hnone : s.elementBytes = [] := by rw [State.elementBytes, h]; rfl
  rw [finishElement, hnone]
  rfl

/-- The element ends, from a state that differs in Rice and channel registers only. -/
def Res.EndsWithout (s : State) (r : Res Unit) : Prop :=
  ∃ u : State, r = .ok () (u.elementDone u.mem) ∧ u.outside = s.outside ∧ u.parser = s.parser ∧ u.cursor = s.cursor

theorem State.initRun_res (s : State) (c : Ch) : ((s.initRun c).ch c).res = [] := by
  cases c <;> rfl

theorem State.initRun_cursor (s : State) (c : Ch) : (s.initRun c).cursor = s.cursor := by
  cases c <;> rfl

theorem lastChannelDone_of_zero {s : State} (h : s.parser.n = 0#32) {c : Ch} (hres : (s.ch c).res = []) :
    (lastChannelDone c s).EndsWithout s := by
  obtain ⟨r, hr⟩ := reconstruct_nil hres
  refine ⟨s.setCh c r, ?_, s.outside_setCh c r, s.setCh_parser c r, s.setCh_cursor c r⟩
  rw [lastChannelDone, hr, Res.bind_ok, finishElement_of_zero (by rwa [State.setCh_parser])]

/-- The run of channel 0 of an element of no samples ends the element. -/
theorem beginFirstRun_of_zero {s : State} (h : s.parser.n = 0#32) : (beginFirstRun s).EndsWithout s := by
  obtain ⟨r, hr⟩ := reconstruct_nil (s.initRun_res .c0)
  rw [beginFirstRun, if_pos h, firstChannelDone, hr, Res.bind_ok]
  generalize hs' : (s.initRun .c0).setCh .c0 r = s'
  have hout : s'.outside = s.outside := by rw [← hs', State.outside_setCh, State.outside_initRun]
  have hparser : s'.parser = s.parser := by rw [← hs', State.setCh_parser, State.initRun_parser]
  have hcursor : s'.cursor = s.cursor := by rw [← hs', State.setCh_cursor, State.initRun_cursor]
  have hn : s'.parser.n = 0#32 := by rw [hparser, h]
  split
  · obtain ⟨u, hu, huout, huparser, hucursor⟩ := lastChannelDone_of_zero (s := s'.initRun .c1)
      (by rwa [State.initRun_parser]) (s'.initRun_res .c1)
    rw [beginSecondRun, if_pos hn]
    refine ⟨u, hu, ?_, ?_, ?_⟩
    · rw [huout, State.outside_initRun, hout]
    · rw [huparser, State.initRun_parser, hparser]
    · rw [hucursor, State.initRun_cursor, hcursor]
  · exact ⟨s', finishElement_of_zero hn, hout, hparser, hcursor⟩

/-! ### A predictor header (R245, R246) -/

section Header

variable {s : State} {m q : BitVec 4} {r : BitVec 3} {n : BitVec 5} {cs : List (BitVec 16)}

theorem State.loaded_nch (s : State) : (s.loaded m q r n cs).nch = s.nch := s.setCh_nch _ _

theorem State.loaded_cursor (s : State) : (s.loaded m q r n cs).cursor = s.cursor := s.setCh_cursor _ _

/-- The header of channel 0 of a CPE. -/
theorem predictorBody_of_first (hchan : s.chan = .c0) (hnch : s.nch = 2) :
    predictorBody m q r n cs s = .ok () ((s.loaded m q r n cs).goto .predictor .c1) := by
  have hfirst : (s.loaded m q r n cs).chan = .c0 ∧ (s.loaded m q r n cs).nch = 2 :=
    ⟨(s.setCh_chan _ _).trans hchan, s.loaded_nch.trans hnch⟩
  exact if_pos hfirst

/-- The last header of an element. -/
theorem predictorBody_of_last (h : s.chan = .c1 ∨ s.nch ≠ 2) :
    predictorBody m q r n cs s = (readLowPlanes (s.loaded m q r n cs)).bind fun _ t => beginFirstRun t := by
  have hlast : ¬ ((s.loaded m q r n cs).chan = .c0 ∧ (s.loaded m q r n cs).nch = 2) := by
    rintro ⟨hchan, hnch⟩
    rw [State.loaded, State.setCh_chan] at hchan
    rw [State.loaded_nch] at hnch
    obtain h | h := h
    · rw [h] at hchan
      cases hchan
    · exact h hnch
  exact if_neg hlast

/-- With no low-bit planes the run of channel 0 begins at once. -/
theorem predictorBody_of_no_planes (h : s.chan = .c1 ∨ s.nch ≠ 2) (hub : s.parser.ub = 0#2) (hn : s.parser.n ≠ 0#32) :
    predictorBody m q r n cs s = .ok () ((s.loaded m q r n cs).initRun .c0) := by
  have hub' : (s.loaded m q r n cs).parser.ub = 0#2 := by rwa [State.loaded_parser]
  rw [predictorBody_of_last h, readLowPlanes, if_pos hub', Res.bind_ok, beginFirstRun,
    if_neg (by rwa [State.loaded_parser])]

/-- An element of no samples ends with its last header. -/
theorem predictorBody_of_zero (h : s.chan = .c1 ∨ s.nch ≠ 2) (hn : s.parser.n = 0#32) :
    (predictorBody m q r n cs s).EndsWithout s := by
  obtain ⟨v, hv, hvout, hvparser, hvcursor⟩ : ∃ v : State, readLowPlanes (s.loaded m q r n cs) = .ok () v ∧
      v.outside = s.outside ∧ v.parser = s.parser ∧ v.cursor = s.cursor := by
    unfold readLowPlanes
    rw [State.loaded_parser, hn]
    split
    · exact ⟨_, rfl, State.outside_loaded _ _ _ _ _ _, State.loaded_parser _ _ _ _ _ _, s.loaded_cursor⟩
    · refine ⟨_, rfl, ?_, ?_, ?_⟩
      all_goals split
      · exact State.outside_loaded s m q r n cs
      · exact State.outside_loaded s m q r n cs
      · exact State.loaded_parser s m q r n cs
      · exact State.loaded_parser s m q r n cs
      · exact s.loaded_cursor
      · exact s.loaded_cursor
  obtain ⟨u, hu, huout, huparser, hucursor⟩ := beginFirstRun_of_zero (s := v) (by rwa [hvparser])
  refine ⟨u, ?_, huout.trans hvout, huparser.trans hvparser, hucursor.trans hvcursor⟩
  rw [predictorBody_of_last h, hv, Res.bind_ok, hu]

end Header

/-! ### The low-bit planes (R246) -/

/-- The low-bit values of n sample times of w bits from the cursor on, as pairs of the two channels. -/
def State.lowPairs (s : State) (w n : Nat) : List (Word × Word) :=
  (List.range n).map fun j =>
    (s.streamWord (s.pos + j * (s.nch * w)) w, if s.nch = 2 then s.streamWord (s.pos + j * (s.nch * w) + w) w else 0#32)

/-- The low-bit values in the channels of the element. -/
def State.storeLow (s : State) (l : List (Word × Word)) : State :=
  s.setLow (l.map (·.1)) (if s.nch = 2 then l.map (·.2) else s.ch1.low)

theorem State.nch_eq_one_or_two (s : State) : s.nch = 1 ∨ s.nch = 2 := by
  unfold State.nch
  split
  · exact .inr rfl
  · exact .inl rfl

theorem State.map_fst_lowPairs (s : State) (w n : Nat) :
    (s.lowPairs w n).map (·.1) = (List.range n).map fun j => s.streamWord (s.pos + j * (s.nch * w)) w := by
  rw [State.lowPairs, List.map_map]
  rfl

theorem State.map_snd_lowPairs {s : State} (h : s.nch = 2) (w n : Nat) :
    (s.lowPairs w n).map (·.2) = (List.range n).map fun j => s.streamWord (s.pos + j * (s.nch * w) + w) w := by
  rw [State.lowPairs, List.map_map]
  refine List.map_congr_left fun j _ => ?_
  exact if_pos h

/-- The header registers and the table of a channel stay when its low-bit values are stored and its run begins. -/
theorem State.ch_storeLow_initRun (s : State) (l : List (Word × Word)) (c : Ch) :
    ((s.storeLow l).initRun .c0).ch c =
      { s.ch c with res := (((s.storeLow l).initRun .c0).ch c).res, low := (((s.storeLow l).initRun .c0).ch c).low } := by
  cases c <;> rfl

section Planes

variable {s : State} {w : Nat} (hub : s.parser.ub ≠ 0#2) (hw : 8 * s.parser.ub.toNat = w)

include hub hw

theorem readLowPlanes_eq :
    readLowPlanes s = (repeatRead (lowGroup s.nch w) s.parser.n.toNat s).bind fun l t => .ok () (t.storeLow l) := by
  rw [readLowPlanes, if_neg hub, lowPlanes_eq, hw]
  congr 1
  funext l t
  unfold State.storeLow
  have hnch : (t.setCh .c0 { t.ch0 with low := l.map (·.1) }).nch = t.nch := rfl
  dsimp only
  rw [hnch]
  split <;> rfl

theorem readLowPlanes_of_canRead (hcan : s.CanRead (s.parser.n.toNat * (s.nch * w))) :
    readLowPlanes s = .ok () ((s.cursorAt (s.pos + s.parser.n.toNat * (s.nch * w))).storeLow
      (s.lowPairs w s.parser.n.toNat)) := by
  have hub4 := s.parser.ub.isLt
  rw [readLowPlanes_eq hub hw,
    repeatRead_of_canRead (lowGroup_reads s.nch_eq_one_or_two (by omega) hcan.1) hcan]
  rfl

theorem readLowPlanes_runsPast (hr : s.InputReadable) (hpos : s.pos ≤ s.endPos) (hmax : s.endPos < 2 ^ 34)
    (hend : s.endPos < s.pos + s.parser.n.toNat * (s.nch * w)) :
    (readLowPlanes s).RunsPast s (s.pos + s.parser.n.toNat * (s.nch * w)) := by
  have hub4 := s.parser.ub.isLt
  rw [readLowPlanes_eq hub hw]
  exact (repeatRead_runsPast (lowGroup_reads s.nch_eq_one_or_two (by omega) hr) hpos hmax hend).bind _

end Planes

end Sys2Proof.Machine

namespace Sys2Proof.Proofs
open Sys2Proof.Machine

/-- Settles O56: what follows a header depends on whether it is the element's last, on `UB` and on the sample count. -/
theorem predictorHeaderLoads : Obligations.PredictorHeaderLoads := by
  intro s i m q r n cs hheader _ load
  have hexec := exec_of_headerOf hheader s
  rw [hexec]
  have hmono (hstate : s.parser.state ≠ .cpe) : s.nch ≠ 2 := mt s.nch_eq_two_iff.1 hstate
  refine ⟨fun hchan hstate => ?_, fun hchan hstate hub hn => ?_, fun hchan hub hn => ?_, fun hlast hn => ?_⟩
  · rw [predictorBody_of_first hchan (s.nch_eq_two_iff.2 hstate), State.loaded, hchan]
    rfl
  · rw [predictorBody_of_no_planes (.inr (hmono hstate)) hub hn, State.loaded, hchan]
    rfl
  · rw [predictorBody_of_no_planes (.inl hchan) hub hn, State.loaded, hchan]
    rfl
  · obtain ⟨u, hu, hout, hparser, hcursor⟩ := predictorBody_of_zero (m := m) (q := q) (r := r) (n := n) (cs := cs)
      (hlast.imp_right hmono) hn
    obtain ⟨hcfg, hport, hmem, -⟩ := State.outside_eq_iff.1 hout
    refine ⟨_, congrArg Res.outcome hu, hmem, hcursor, hport, hcfg, ?_, rfl⟩
    rw [← hparser, ← State.nch_congr (congrArg Parser.state hparser)]
    rfl

/-- Settles O57: the planes are read one sample time after another, past the end at one of them or all there; then the run of
channel 0 begins. -/
theorem lowPlanesAreRead : Obligations.LowPlanesAreRead := by
  intro s i m q r n cs hheader _ hlast hub hn w
  have hout : (s.loaded m q r n cs).outside = s.outside := State.outside_loaded s m q r n cs
  have hparser : (s.loaded m q r n cs).parser = s.parser := State.loaded_parser s m q r n cs
  have hpos : (s.loaded m q r n cs).pos = s.pos := State.pos_congr s.loaded_cursor
  have hnch : (s.loaded m q r n cs).nch = s.nch := s.loaded_nch
  have hend : (s.loaded m q r n cs).endPos = s.endPos := State.endPos_of_outside hout
  have hexec := exec_of_headerOf hheader s
  rw [predictorBody_of_last (hlast.imp_right fun h => by omega)] at hexec
  have hlength : (s.loaded m q r n cs).parser.n.toNat * ((s.loaded m q r n cs).nch * w) = s.parser.n.toNat * (s.nch * w) := by
    rw [hparser, hnch]
  refine ⟨fun hr hin hmax hpast => ?_, fun hcan => ?_⟩
  · obtain ⟨p, hlow, hnear, hle, hraised⟩ := readLowPlanes_runsPast (s := s.loaded m q r n cs) (w := w) (by rwa [hparser])
      (by rw [hparser]) (State.InputReadable.of_outside hr hout) (by rwa [hpos, hend]) (by rwa [hend])
      (by rwa [hlength, hpos, hend])
    rw [hend] at hlow hnear
    rw [hlength, hpos] at hle
    have herror : ((s.loaded m q r n cs).cursorAt p).raiseError .malformedStream =
        (s.cursorAt p).raiseError .malformedStream := by
      unfold State.loaded
      cases s.chan <;> rfl
    refine ⟨p, hlow, hnear, hle, ?_, rfl⟩
    rw [hexec, hraised, Res.bind_raised, Res.outcome_raised, herror]
  · have hread := readLowPlanes_of_canRead (s := s.loaded m q r n cs) (w := w) (by rwa [hparser]) (by rw [hparser]) (by
      rw [hlength]
      exact ⟨State.InputReadable.of_outside hcan.1 hout, by rw [hpos, hend]; exact hcan.2.1, by rw [hpos]; exact hcan.2.2⟩)
    rw [hlength, hpos] at hread
    have hbegins := beginFirstRun_of_samples (s := ((s.loaded m q r n cs).cursorAt
      (s.pos + s.parser.n.toNat * (s.nch * w))).storeLow ((s.loaded m q r n cs).lowPairs w (s.loaded m q r n cs).parser.n.toNat))
      (show (s.loaded m q r n cs).parser.n ≠ 0#32 by rwa [hparser])
    have hlow0 := (s.loaded m q r n cs).map_fst_lowPairs w s.parser.n.toNat
    have hlow1 := fun h2 : s.nch = 2 => State.map_snd_lowPairs (hnch.trans h2) w s.parser.n.toNat
    simp only [State.streamWord_of_outside hout, hpos, hnch] at hlow0 hlow1
    have hch : (s.loaded m q r n cs).ch s.chan = (s.ch s.chan).loadHeader m q r n cs := s.ch_setCh_same _ _
    obtain ⟨hcfg, hport, hmem, -⟩ := State.outside_eq_iff.1 hout
    rw [hread, Res.bind_ok, hbegins] at hexec
    rw [hparser] at hexec
    have hkept := State.ch_storeLow_initRun ((s.loaded m q r n cs).cursorAt (s.pos + s.parser.n.toNat * (s.nch * w)))
      ((s.loaded m q r n cs).lowPairs w s.parser.n.toNat) s.chan
    have hstart : ((s.loaded m q r n cs).cursorAt (s.pos + s.parser.n.toNat * (s.nch * w))).ch s.chan =
        (s.ch s.chan).loadHeader m q r n cs := hch
    rw [hstart] at hkept
    refine ⟨_, hexec, ?_, hlow0, fun h2 => (if_pos (hnch.trans h2)).trans (hlow1 h2), ?_, ?_, ?_, ?_, ?_, ?_, rfl, rfl, rfl,
      hport, hcfg, hmem, hparser⟩
    · have hlt := hcan.2.2
      exact State.cursorAt_pos (s.loaded m q r n cs) (by omega)
    · exact congrArg ChanRegs.mode hkept
    · exact congrArg ChanRegs.quant hkept
    · exact congrArg ChanRegs.ricemod hkept
    · exact congrArg ChanRegs.ncoef hkept
    · exact congrArg ChanRegs.coef hkept
    · change ({ (s.loaded m q r n cs).rice with
        history := (s.loaded m q r n cs).cfg.initHist.setWidth 32, signMod := 0#32 } : Rice) = _
      rw [hcfg, State.loaded, State.setCh_rice]

end Sys2Proof.Proofs
end

section
/-! Two cores about to run a DECODE do the same: what each step reads of the state (R35, R258). -/

namespace Sys2Proof.Machine

/-! ### Reads of two cores with the same input -/

/-- The two cores read the same input from the same position. -/
structure SameInput (s s' : State) : Prop where
  cursor : s.cursor = s'.cursor
  port : s.port = s'.port
  mem : s.mem = s'.mem

/-- The two reads answer the same: the same value, error or lack of a byte, with the cursor moved to the same place. -/
inductive Res.SameRead {α : Type} (s s' : State) : Res α → Res α → Prop where
  | ok (a : α) (c : Cursor) : SameRead s s' (.ok a (s.setCursor c)) (.ok a (s'.setCursor c))
  | raised (e : ErrKind) (c : Cursor) : SameRead s s' (.raised e (s.setCursor c)) (.raised e (s'.setCursor c))
  | stuck (f : Fault) : SameRead s s' (.stuck f) (.stuck f)

namespace SameInput

variable {s s' : State} (h : SameInput s s')

include h

theorem setCursor (c : Cursor) : SameInput (s.setCursor c) (s'.setCursor c) := ⟨rfl, h.port, h.mem⟩

theorem pure {α : Type} (a : α) : Res.SameRead s s' (.ok a s) (.ok a s') := by
  have hread := Res.SameRead.ok (s := s) (s' := s') a s.cursor
  rwa [h.cursor, State.setCursor_self, ← h.cursor, State.setCursor_self] at hread

theorem raises {α : Type} (e : ErrKind) : Res.SameRead s s' (.raised e s : Res α) (.raised e s') := by
  have hread := Res.SameRead.raised (α := α) (s := s) (s' := s') e s.cursor
  rwa [h.cursor, State.setCursor_self, ← h.cursor, State.setCursor_self] at hread

theorem pos : s.pos = s'.pos := State.pos_congr h.cursor

theorem endPos : s.endPos = s'.endPos := by rw [State.endPos, State.endPos, h.port]

theorem inByte (j : Nat) : s.inByte j = s'.inByte j := by rw [State.inByte, State.inByte, h.port, h.mem]

end SameInput

/-- The cursor a read starts from is overwritten by the cursor it leaves. -/
theorem Res.SameRead.of_setCursor {α : Type} {s s' : State} {c : Cursor} {r r' : Res α}
    (h : Res.SameRead (s.setCursor c) (s'.setCursor c) r r') : Res.SameRead s s' r r' := by
  cases h with
  | ok a d => exact .ok a d
  | raised e d => exact .raised e d
  | stuck f => exact .stuck f

theorem Res.SameRead.bind {α β : Type} {s s' : State} {r r' : Res α} {g g' : α → State → Res β}
    (h : Res.SameRead s s' r r')
    (hg : ∀ a c, Res.SameRead (s.setCursor c) (s'.setCursor c) (g a (s.setCursor c)) (g' a (s'.setCursor c))) :
    Res.SameRead s s' (r.bind g) (r'.bind g') := by
  cases h with
  | ok a c => exact (hg a c).of_setCursor
  | raised e c => exact .raised e c
  | stuck f => exact .stuck f

section Reads

variable {s s' : State} (h : SameInput s s')

include h

theorem checkEnd_same : Res.SameRead s s' (checkEnd s) (checkEnd s') := by
  unfold checkEnd
  rw [h.cursor, h.endPos, h.pos]
  split
  · exact h.raises _
  · exact h.pure _

theorem checkEnd_setCursor_same (c : Cursor) :
    Res.SameRead s s' (checkEnd (s.setCursor c)) (checkEnd (s'.setCursor c)) :=
  (checkEnd_same (h.setCursor c)).of_setCursor

theorem advance_same (n : Nat) : Res.SameRead s s' (advance n s) (advance n s') := by
  rw [advance, advance, ← h.cursor]
  exact checkEnd_setCursor_same h _

theorem align_same : Res.SameRead s s' (align s) (align s') := by
  rw [align_eq, align_eq, ← h.pos]
  exact checkEnd_setCursor_same h _

theorem unreadBits_same (n : Nat) : Res.SameRead s s' (unreadBits n s) (unreadBits n s') := by
  unfold unreadBits
  rw [h.cursor, h.pos]
  split
  · exact h.raises _
  · exact .ok _ _

theorem read16_same (n : Nat) : Res.SameRead s s' (read16 n s) (read16 n s') := by
  unfold read16
  rw [h.cursor, h.inByte, h.inByte, h.inByte]
  split
  · exact (advance_same h n).bind fun _ c => (h.setCursor c).pure _
  · exact .stuck _

theorem readBits_same (n : Nat) : Res.SameRead s s' (readBits n s) (readBits n s') := by
  unfold readBits
  split
  · exact read16_same h n
  · exact (read16_same h _).bind fun _ c => (read16_same (h.setCursor c) _).bind fun _ d =>
      ((h.setCursor c).setCursor d).pure _

theorem readBit_same : Res.SameRead s s' (readBit s) (readBit s') := by
  unfold readBit
  rw [h.cursor, h.inByte]
  split
  · exact (advance_same h 1).bind fun _ c => (h.setCursor c).pure _
  · exact .stuck _

theorem second_same {α : Type} (p : Prop) [Decidable p] {r r' : Res α} (a : α) (hr : Res.SameRead s s' r r') :
    Res.SameRead s s' (if p then r else .ok a s) (if p then r' else .ok a s') := by
  split
  · exact hr
  · exact h.pure a

theorem rawSample_same (size : Nat) : Res.SameRead s s' (rawSample size s) (rawSample size s') := by
  unfold rawSample
  split
  · exact (readBits_same h _).bind fun _ c => (h.setCursor c).pure _
  · exact (readBits_same h _).bind fun _ c => (readBits_same (h.setCursor c) _).bind fun _ d =>
      ((h.setCursor c).setCursor d).pure _

end Reads

theorem fetchFields_same {α : Type} (f : Fields α) {s s' : State} (h : SameInput s s') :
    Res.SameRead s s' (fetchFields f s) (fetchFields f s') := by
  induction f generalizing s s' with
  | done a => exact h.pure a
  | field n k ih => exact (readBits_same h n).bind fun v c => ih _ (h.setCursor c)
  | bit k ih => exact (readBit_same h).bind fun b c => ih b (h.setCursor c)
  | back f ih => exact (unreadBits_same h 1).bind fun _ c => ih (h.setCursor c)

theorem rawSamples_same (nch size : Nat) (bug : Bool) (n : Nat) {s s' : State} (h : SameInput s s') :
    Res.SameRead s s' (rawSamples nch size bug n s) (rawSamples nch size bug n s') := by
  induction n generalizing s s' with
  | zero => exact h.pure []
  | succ n ih =>
    exact (rawSample_same h size).bind fun _ c =>
      (second_same (h.setCursor c) _ _ (rawSample_same (h.setCursor c) size)).bind fun _ d =>
        (ih ((h.setCursor c).setCursor d)).bind fun _ e => (((h.setCursor c).setCursor d).setCursor e).pure _

theorem lowPlanes_same (nch width n : Nat) {s s' : State} (h : SameInput s s') :
    Res.SameRead s s' (lowPlanes nch width n s) (lowPlanes nch width n s') := by
  induction n generalizing s s' with
  | zero => exact h.pure []
  | succ n ih =>
    exact (readBits_same h width).bind fun _ c =>
      (second_same (h.setCursor c) _ _ (readBits_same (h.setCursor c) width)).bind fun _ d =>
        (ih ((h.setCursor c).setCursor d)).bind fun _ e => (((h.setCursor c).setCursor d).setCursor e).pure _

/-! ### What the predictor and the output read of the registers -/

/-- The samples depend on the coefficients in use, not on the rest of the table. -/
theorem fir_take_congr {coef coef' : List Word} {n : Nat} (h : coef.take n = coef'.take n) (cb q : Nat) (src : List Word) :
    (fir cb n q src coef).map Prod.fst = (fir cb n q src coef').map Prod.fst := by
  unfold fir
  cases src with
  | nil => rfl
  | cons x rest =>
    dsimp only
    split
    · rfl
    split
    · rfl
    rw [h]
    cases firLoop cb n q (rest.drop n) (x :: firstDiff cb x (rest.take n)).reverse (coef'.take n) <;> rfl

/-- Two channels with the same header: the registers, and the coefficients in use. -/
structure SameHeader (r r' : ChanRegs) : Prop where
  mode : r.mode = r'.mode
  quant : r.quant = r'.quant
  ricemod : r.ricemod = r'.ricemod
  ncoef : r.ncoef = r'.ncoef
  coef : r.coef.take r.ncoef.toNat = r'.coef.take r'.ncoef.toNat

/-- The prediction depends on the header and the residuals. -/
theorem reconstructChan_same {r r' : ChanRegs} (h : SameHeader r r') (hres : r.res = r'.res) (cb : Nat) :
    (reconstructChan cb r).map ChanRegs.smp = (reconstructChan cb r').map ChanRegs.smp := by
  obtain ⟨hmode, hquant, -, hncoef, hcoef⟩ := h
  rw [← hncoef] at hcoef
  have hpass (res : List Word) :
      ((fir cb r.ncoef.toNat r.quant.toNat res r.coef).map fun p => { r with res := res, smp := p.1, coef := p.2 }).map
          ChanRegs.smp =
        ((fir cb r'.ncoef.toNat r'.quant.toNat res r'.coef).map fun p =>
          { r' with res := res, smp := p.1, coef := p.2 }).map ChanRegs.smp := by
    rw [Option.map_map, Option.map_map, ← hncoef, ← hquant]
    exact fir_take_congr hcoef cb _ res
  rw [reconstructChan_eq_predicted, reconstructChan_eq_predicted, ChanRegs.predicted, ChanRegs.predicted]
  by_cases hm : r.mode = 0#4
  · rw [if_pos hm, if_pos (hmode ▸ hm), ← hres]
    exact hpass r.res
  · rw [if_neg hm, if_neg (hmode ▸ hm), ← hres, fir_thirtyOne, fir_thirtyOne]
    exact hpass _

theorem State.frameBytes_of_pair {s : State} (h : s.parser.state = .cpe) (i : Nat) :
    s.frameBytes i =
      s.sampleBytes i s.parser.ci
          (unmix s.parser.mixWeight s.parser.mixShift (scratchAt s.ch0.smp i) (scratchAt s.ch1.smp i)).1
          (scratchAt s.ch0.low i) ++
        s.sampleBytes i (s.parser.ci + 1)
          (unmix s.parser.mixWeight s.parser.mixShift (scratchAt s.ch0.smp i) (scratchAt s.ch1.smp i)).2
          (scratchAt s.ch1.low i) := by
  rw [State.frameBytes, State.channelValues_of_pair h, State.lowValues_of_pair h]
  simp

/-- The low-bit value is read when `UB` is above 0 only. -/
theorem State.sampleBytes_same {s s' : State} (hcfg : s.cfg = s'.cfg) (hport : s.port = s'.port)
    (hparser : s.parser = s'.parser) {low low' : Word} (hlow : s.parser.ub ≠ 0#2 → low = low') (i c : Nat) (v : Word) :
    s.sampleBytes i c v low = s'.sampleBytes i c v low' := by
  have hvalue : containerValue s.cfg.bits s.parser.ub v low = containerValue s.cfg.bits s.parser.ub v low' := by
    by_cases hub : s.parser.ub = 0#2
    · rw [hub, containerValue_of_ub_zero, containerValue_of_ub_zero _ _ low']
    · rw [hlow hub]
  have haddr : s.sampleAddr i c = s'.sampleAddr i c := by
    rw [State.sampleAddr, State.sampleAddr, State.slot, State.slot, State.bps, State.bps, hcfg, hport]
  rw [State.sampleBytes, State.sampleBytes, hvalue, haddr, State.bps, State.bps, hcfg, hparser]

/-- The output of an element depends on its header, its samples and, with `UB` above 0, its low-bit values. -/
theorem State.elementBytes_same {s s' : State} (hcfg : s.cfg = s'.cfg) (hport : s.port = s'.port)
    (hparser : s.parser = s'.parser) (hsmp0 : s.ch0.smp = s'.ch0.smp) (hsmp1 : s.nch = 2 → s.ch1.smp = s'.ch1.smp)
    (hlow0 : s.parser.ub ≠ 0#2 → s.ch0.low = s'.ch0.low)
    (hlow1 : s.parser.ub ≠ 0#2 → s.nch = 2 → s.ch1.low = s'.ch1.low) : s.elementBytes = s'.elementBytes := by
  have hframe (i : Nat) : s.frameBytes i = s'.frameBytes i := by
    by_cases hcpe : s.parser.state = .cpe
    · have hnch := s.nch_eq_two_iff.2 hcpe
      rw [State.frameBytes_of_pair hcpe, State.frameBytes_of_pair (hparser ▸ hcpe), ← hsmp0, ← hsmp1 hnch, ← hparser,
        State.sampleBytes_same hcfg hport hparser (fun hub => congrArg (scratchAt · i) (hlow0 hub)),
        State.sampleBytes_same hcfg hport hparser (fun hub => congrArg (scratchAt · i) (hlow1 hub hnch))]
    · rw [State.frameBytes_of_mono hcpe, State.frameBytes_of_mono (hparser ▸ hcpe), ← hsmp0, ← hparser,
        State.sampleBytes_same hcfg hport hparser (fun hub => congrArg (scratchAt · i) (hlow0 hub))]
  rw [State.elementBytes, State.elementBytes, hparser]
  congr 1
  funext i
  exact hframe i

/-! ### Two cores in the same place of the same command -/

/-- What carries into a DECODE agrees (R35), and the host is done. -/
structure Common (s s' : State) : Prop where
  cfg : s.cfg = s'.cfg
  port : s.port = s'.port
  mem : s.mem = s'.mem
  params : s.params = s'.params
  host : s.host = []
  host' : s'.host = []

/-- At a tag the cursor, `CI` and `HWM` agree as well. -/
structure SameTag (s s' : State) : Prop extends Common s s' where
  cursor : s.cursor = s'.cursor
  ci : s.parser.ci = s'.parser.ci
  hwm : s.parser.hwm = s'.parser.hwm

/-- Inside an element the cursor and the parser registers agree as well. -/
structure SameElement (s s' : State) : Prop extends Common s s' where
  cursor : s.cursor = s'.cursor
  parser : s.parser = s'.parser

/-- The low-bit values agree where the element has any. -/
structure SameLow (s s' : State) : Prop where
  low0 : s.parser.ub ≠ 0#2 → s.ch0.low = s'.ch0.low
  low1 : s.parser.ub ≠ 0#2 → s.nch = 2 → s.ch1.low = s'.ch1.low

/-- All the predictor headers of the element are loaded. -/
structure SameLoaded (s s' : State) : Prop extends SameElement s s' where
  header0 : SameHeader s.ch0 s'.ch0
  header1 : s.nch = 2 → SameHeader s.ch1 s'.ch1

/-- In the run of channel c: the header and the residuals of c, the header still to be used, the samples already there. -/
structure SameRun (c : Ch) (s s' : State) : Prop extends SameElement s s', SameLow s s' where
  header : SameHeader (s.ch c) (s'.ch c)
  res : (s.ch c).res = (s'.ch c).res
  later : c = .c0 → s.nch = 2 → SameHeader s.ch1 s'.ch1
  earlier : c = .c1 → s.nch = 2 ∧ s.ch0.smp = s'.ch0.smp

/-- Two cores that read the same next, and agree on all that the command still depends on. -/
inductive Same : State → State → Prop where
  | idle {s s' : State} (h : Common s s') (hs : s.stage = .idle) (hs' : s'.stage = .idle) : Same s s'
  | element {s s' : State} (h : SameTag s s') (hs : s.stage = .element) (hs' : s'.stage = .element) : Same s s'
  | predictor {s s' : State} (h : SameElement s s') (hchan : s.chan = s'.chan)
      (hfirst : s.chan = .c1 → SameHeader s.ch0 s'.ch0) (hs : s.stage = .predictor) (hs' : s'.stage = .predictor) : Same s s'
  | run {s s' : State} (h : SameRun s.chan s s') (hchan : s.chan = s'.chan) (hhistory : s.rice.history = s'.rice.history)
      (hsign : s.rice.signMod = s'.rice.signMod) (hs : s.stage = .residual ∨ s.stage = .zeroRun)
      (hs' : s.stage = s'.stage) : Same s s'

/-- The two operations come to the same end. -/
inductive Res.SameNext : Res Unit → Res Unit → Prop where
  | ok {t t' : State} (h : Same t t') : SameNext (.ok () t) (.ok () t')
  | raised (e : ErrKind) {t t' : State} (h : Common t t') : SameNext (.raised e t) (.raised e t')
  | stuck (f : Fault) : SameNext (.stuck f) (.stuck f)

/-- The two steps come to the same end. -/
inductive SameOutcome : Host.Outcome State Fault Refusal → Host.Outcome State Fault Refusal → Prop where
  | next {t t' : State} (h : Same t t') : SameOutcome (.next t) (.next t')
  | fault (f : Fault) : SameOutcome (.fault f) (.fault f)

theorem Common.of_outside {s s' t t' : State} (h : Common s s') (ht : t.outside = s.outside) (ht' : t'.outside = s'.outside) :
    Common t t' := by
  obtain ⟨hcfg, hport, hmem, hparams, hhost, -⟩ := State.outside_eq_iff.1 ht
  obtain ⟨hcfg', hport', hmem', hparams', hhost', -⟩ := State.outside_eq_iff.1 ht'
  exact ⟨by rw [hcfg, hcfg', h.cfg], by rw [hport, hport', h.port], by rw [hmem, hmem', h.mem],
    by rw [hparams, hparams', h.params], hhost.trans h.host, hhost'.trans h.host'⟩

theorem Common.raiseError {s s' : State} (h : Common s s') (e : ErrKind) : Same (s.raiseError e) (s'.raiseError e) := by
  refine .idle ⟨h.cfg, ?_, h.mem, h.params, h.host, h.host'⟩ rfl rfl
  rw [State.raiseError_port, State.raiseError_port, State.op, State.op, h.port]

theorem Res.SameNext.outcome {r r' : Res Unit} (h : r.SameNext r') : SameOutcome r.outcome r'.outcome := by
  cases h with
  | ok h => exact .next h
  | raised e h => exact .next (h.raiseError e)
  | stuck f => exact .fault f

theorem Res.SameNext.bind_read {α : Type} {s s' : State} {r r' : Res α} {g g' : α → State → Res Unit}
    (h : Common s s') (hr : Res.SameRead s s' r r')
    (hg : ∀ a c, (g a (s.setCursor c)).SameNext (g' a (s'.setCursor c))) : (r.bind g).SameNext (r'.bind g') := by
  cases hr with
  | ok a c => exact hg a c
  | raised e c => exact .raised e (h.of_outside rfl rfl)
  | stuck f => exact .stuck f

theorem Res.SameNext.bind_require {s s' : State} {b b' : Bool} (hb : b = b') {e : ErrKind} {g g' : Unit → State → Res Unit}
    (h : Common s s') (hg : (g () s).SameNext (g' () s')) :
    ((require b e s).bind g).SameNext ((require b' e s').bind g') := by
  subst hb
  cases b with
  | true => exact hg
  | false => exact .raised e h

theorem SameElement.input {s s' : State} (h : SameElement s s') : SameInput s s' := ⟨h.cursor, h.port, h.mem⟩

theorem SameElement.nch {s s' : State} (h : SameElement s s') : s.nch = s'.nch := by rw [State.nch, State.nch, h.parser]

theorem SameElement.chanBits {s s' : State} (h : SameElement s s') : s.chanBits = s'.chanBits := by
  rw [State.chanBits, State.chanBits, h.cfg, h.parser, h.nch]

theorem SameElement.setCursor {s s' : State} (h : SameElement s s') (c : Cursor) :
    SameElement (s.setCursor c) (s'.setCursor c) := ⟨h.toCommon.of_outside rfl rfl, rfl, h.parser⟩

theorem SameTag.setCursor {s s' : State} (h : SameTag s s') (c : Cursor) : SameTag (s.setCursor c) (s'.setCursor c) :=
  ⟨h.toCommon.of_outside rfl rfl, rfl, h.ci, h.hwm⟩

/-- The channel registers and what is read next do not matter here. -/
theorem SameElement.of_registers {s s' t t' : State} (h : SameElement s s') (ht : t.outside = s.outside)
    (ht' : t'.outside = s'.outside) (hcursor : t.cursor = s.cursor) (hcursor' : t'.cursor = s'.cursor)
    (hparser : t.parser = s.parser) (hparser' : t'.parser = s'.parser) : SameElement t t' :=
  ⟨h.toCommon.of_outside ht ht', by rw [hcursor, hcursor', h.cursor], by rw [hparser, hparser', h.parser]⟩

/-! ### The end of an element, and the run of a channel -/

theorem finishElement_same {s s' : State} (h : SameElement s s') (hsmp0 : s.ch0.smp = s'.ch0.smp)
    (hsmp1 : s.nch = 2 → s.ch1.smp = s'.ch1.smp) (hlow : SameLow s s') :
    (finishElement s).SameNext (finishElement s') := by
  have hbytes := State.elementBytes_same h.cfg h.port h.parser hsmp0 hsmp1 hlow.low0 hlow.low1
  unfold finishElement
  rw [← hbytes, ← h.mem, ← h.nch, ← h.parser]
  split
  · exact .stuck _
  · exact .ok (.element ⟨⟨h.cfg, h.port, rfl, h.params, h.host, h.host'⟩, h.cursor, rfl, rfl⟩ rfl rfl)

/-- The prediction of a channel raises on both cores, or gives both the same samples. -/
theorem reconstruct_same {c : Ch} {s s' : State} (h : SameRun c s s') {g g' : Unit → State → Res Unit}
    (hg : ∀ r r' : ChanRegs, r.smp = r'.smp → r.low = (s.ch c).low → r'.low = (s'.ch c).low →
      (g () (s.setCh c r)).SameNext (g' () (s'.setCh c r'))) :
    ((reconstruct c s).bind g).SameNext ((reconstruct c s').bind g') := by
  have hsame := reconstructChan_same h.header h.res s.chanBits.toNat
  have hbits := h.chanBits
  obtain ⟨hraise, hnone⟩ | ⟨r, hr, hok⟩ := reconstruct_cases c s <;>
    obtain ⟨hraise', hnone'⟩ | ⟨r', hr', hok'⟩ := reconstruct_cases c s'
  · rw [hraise, hraise']
    exact .raised _ h.toCommon
  · rw [hnone, hbits, hr'] at hsame
    cases hsame
  · rw [hr, hbits, hnone'] at hsame
    cases hsame
  · rw [hr, hbits, hr'] at hsame
    rw [hok, hok']
    obtain ⟨hkeep, -⟩ := reconstructChan_keeps hr
    obtain ⟨hkeep', -⟩ := reconstructChan_keeps hr'
    exact hg r r' (Option.some.inj hsame) (by rw [hkeep]) (by rw [hkeep'])

namespace SameRun

variable {c : Ch} {s s' : State}

theorem setCh (h : SameRun c s s') (r r' : ChanRegs) : SameElement (s.setCh c r) (s'.setCh c r') :=
  h.toSameElement.of_registers (by simp) (by simp) (by simp) (by simp) (by simp) (by simp)

theorem setCh_low (h : SameRun c s s') {r r' : ChanRegs} (hlow : r.low = (s.ch c).low) (hlow' : r'.low = (s'.ch c).low) :
    SameLow (s.setCh c r) (s'.setCh c r') := by
  cases c with
  | c0 => exact ⟨fun hub => hlow.trans ((h.low0 hub).trans hlow'.symm), h.low1⟩
  | c1 => exact ⟨h.low0, fun hub hnch => hlow.trans ((h.low1 hub hnch).trans hlow'.symm)⟩

theorem setCursor (h : SameRun c s s') (d : Cursor) : SameRun c (s.setCursor d) (s'.setCursor d) where
  toSameElement := h.toSameElement.setCursor d
  low0 := h.low0
  low1 := h.low1
  header := by simpa using h.header
  res := by simpa using h.res
  later := h.later
  earlier := h.earlier

/-- The last channel is predicted, and the element ends. -/
theorem finish (h : SameRun c s s') (hlast : c = .c0 → s.nch ≠ 2) {r r' : ChanRegs} (hsmp : r.smp = r'.smp)
    (hlow : r.low = (s.ch c).low) (hlow' : r'.low = (s'.ch c).low) :
    (finishElement (s.setCh c r)).SameNext (finishElement (s'.setCh c r')) := by
  have hlows := h.setCh_low hlow hlow'
  have hset := h.setCh r r'
  cases c with
  | c0 => exact finishElement_same hset hsmp (fun hnch => absurd hnch (hlast rfl)) hlows
  | c1 => exact finishElement_same hset (h.earlier rfl).2 (fun _ => hsmp) hlows

/-- The run of channel 1 begins once channel 0 is predicted. -/
theorem second (h : SameRun .c0 s s') (hnch : s.nch = 2) {r r' : ChanRegs} (hsmp : r.smp = r'.smp)
    (hlow : r.low = s.ch0.low) (hlow' : r'.low = s'.ch0.low) :
    SameRun .c1 ((s.setCh .c0 r).initRun .c1) ((s'.setCh .c0 r').initRun .c1) where
  toSameElement := (h.setCh r r').of_registers (by simp) (by simp) rfl rfl rfl rfl
  low0 := (h.setCh_low hlow hlow').low0
  low1 := (h.setCh_low hlow hlow').low1
  header :=
    have hheader := h.later rfl hnch
    ⟨hheader.mode, hheader.quant, hheader.ricemod, hheader.ncoef, hheader.coef⟩
  res := rfl
  later := nofun
  earlier _ := ⟨hnch, hsmp⟩

/-- More values of the channel are stored. -/
theorem stored (h : SameRun c s s') (l : List Word) (rice rice' : Rice)
    (hc : s.chan = c) (hc' : s'.chan = c) : SameRun c ((s.pushRes l).setRice rice) ((s'.pushRes l).setRice rice') := by
  have helement : SameElement ((s.pushRes l).setRice rice) ((s'.pushRes l).setRice rice') :=
    h.toSameElement.of_registers (by simp) (by simp) (by simp [State.pushRes]) (by simp [State.pushRes])
      (by simp [State.pushRes]) (by simp [State.pushRes])
  obtain ⟨hmode, hquant, hricemod, hncoef, hcoef⟩ := h.header
  unfold State.pushRes at helement ⊢
  rw [hc, hc'] at helement ⊢
  cases c with
  | c0 =>
    exact ⟨helement, ⟨h.low0, h.low1⟩, ⟨hmode, hquant, hricemod, hncoef, hcoef⟩, congrArg (· ++ l) h.res, h.later, h.earlier⟩
  | c1 =>
    exact ⟨helement, ⟨h.low0, h.low1⟩, ⟨hmode, hquant, hricemod, hncoef, hcoef⟩, congrArg (· ++ l) h.res, nofun, h.earlier⟩

/-- The run goes on with the next codeword. -/
theorem goto (h : SameRun c s s') (hhistory : s.rice.history = s'.rice.history) (hsign : s.rice.signMod = s'.rice.signMod)
    {g : Stage} (hg : g = .residual ∨ g = .zeroRun) : Same (s.goto g c) (s'.goto g c) :=
  .run ⟨h.toSameElement.of_registers rfl rfl rfl rfl rfl rfl, ⟨h.low0, h.low1⟩, h.header, h.res, h.later, h.earlier⟩ rfl
    hhistory hsign hg rfl

theorem lastChannelDone (h : SameRun .c1 s s') : (lastChannelDone .c1 s).SameNext (Machine.lastChannelDone .c1 s') :=
  reconstruct_same h fun _ _ hsmp hlow hlow' => h.finish nofun hsmp hlow hlow'

/-- A run that has just begun: on an element of no samples it is over. -/
theorem begun (h : SameRun c (s.initRun c) (s'.initRun c)) (hcfg : s.cfg = s'.cfg) :
    Same (s.initRun c) (s'.initRun c) := by
  have hhistory : (s.initRun c).rice.history = (s'.initRun c).rice.history := by
    cases c <;> exact congrArg (fun cfg : StreamCfg => cfg.initHist.setWidth 32) hcfg
  have hsign : (s.initRun c).rice.signMod = (s'.initRun c).rice.signMod := by cases c <;> rfl
  exact .run h rfl hhistory hsign (.inl rfl) rfl

theorem firstChannelDone (h : SameRun .c0 s s') : (firstChannelDone s).SameNext (Machine.firstChannelDone s') := by
  refine reconstruct_same h fun r r' hsmp hlow hlow' => ?_
  have hnch : (s.setCh .c0 r).nch = (s'.setCh .c0 r').nch := (h.setCh r r').nch
  by_cases htwo : (s.setCh .c0 r).nch = 2
  · have hrun := h.second htwo hsmp hlow hlow'
    rw [if_pos htwo, if_pos (hnch.symm.trans htwo), beginSecondRun, beginSecondRun, ← (h.setCh r r').parser]
    split
    · exact hrun.lastChannelDone
    · exact .ok (hrun.begun (h.setCh r r').cfg)
  · rw [if_neg htwo, if_neg fun hn => htwo (hnch.trans hn)]
    exact h.finish (fun _ => htwo) hsmp hlow hlow'

theorem channelDone (h : SameRun c s s') (hc : s.chan = c) (hc' : s'.chan = c) :
    (channelDone s).SameNext (Machine.channelDone s') := by
  unfold Machine.channelDone
  rw [hc, hc']
  cases c with
  | c0 => exact h.firstChannelDone
  | c1 => exact h.lastChannelDone

theorem nextValue (h : SameRun c s s') (hc : s.chan = c) (hc' : s'.chan = c)
    (hhistory : s.rice.history = s'.rice.history) (hsign : s.rice.signMod = s'.rice.signMod) :
    (nextValue s).SameNext (Machine.nextValue s') := by
  unfold Machine.nextValue
  rw [hc, hc', h.res, h.parser]
  split
  · exact .ok (h.goto hhistory hsign (.inl rfl))
  · exact h.channelDone hc hc'

end SameRun

theorem SameLoaded.beginFirstRun {s s' : State} (h : SameLoaded s s') (hlow : SameLow s s') :
    (beginFirstRun s).SameNext (Machine.beginFirstRun s') := by
  obtain ⟨hmode, hquant, hricemod, hncoef, hcoef⟩ := h.header0
  have hrun : SameRun .c0 (s.initRun .c0) (s'.initRun .c0) :=
    { toSameElement := h.toSameElement.of_registers (by simp) (by simp) rfl rfl rfl rfl
      low0 := hlow.low0, low1 := hlow.low1, header := ⟨hmode, hquant, hricemod, hncoef, hcoef⟩, res := rfl
      later := fun _ => h.header1, earlier := nofun }
  rw [Machine.beginFirstRun, Machine.beginFirstRun, ← h.parser]
  split
  · exact hrun.firstChannelDone
  · exact .ok (hrun.begun h.cfg)

/-! ### Codewords on two cores -/

theorem State.storeValue_signMod (s : State) (d : Word) : (s.storeValue d).rice.signMod = 0#32 := rfl

theorem residualBody_same (c : Codeword) {s s' : State} (h : SameRun s.chan s s') (hchan : s.chan = s'.chan)
    (hhistory : s.rice.history = s'.rice.history) (hsign : s.rice.signMod = s'.rice.signMod) :
    (residualBody c s).SameNext (residualBody c s') := by
  have hk : s.nextK = s'.nextK := by rw [State.nextK, State.nextK, hhistory, h.cfg]
  have hpb : s.pb = s'.pb := by rw [State.pb, State.pb, ← hchan, h.header.ricemod, h.cfg]
  have hstore (d : Word) : SameRun s.chan (s.storeValue d) (s'.storeValue d) := h.stored _ _ _ rfl hchan.symm
  have hchan₁ (d : Word) : (s.storeValue d).chan = s.chan := s.setCh_chan _ _
  have hchan₂ (d : Word) : (s'.storeValue d).chan = s.chan := (s'.setCh_chan _ _).trans hchan.symm
  have hhist (d : Word) : (s.storeValue d).rice.history = (s'.storeValue d).rice.history := by
    change historyAfter s.rice.history d s.pb = historyAfter s'.rice.history d s'.pb
    rw [hhistory, hpb]
  have hsgn (d : Word) : (s.storeValue d).rice.signMod = (s'.storeValue d).rice.signMod := by
    rw [State.storeValue_signMod, State.storeValue_signMod]
  unfold residualBody
  rw [← hk, ← hsign, ← h.parser, ← hchan]
  generalize codewordValue s.nextK.toNat 0xFFFFFFFF#32 c + s.rice.signMod = d
  dsimp only
  rw [hhist, (hstore d).res]
  split
  · exact .ok ((hstore d).goto (hhist d) (hsgn d) (.inr rfl))
  · exact (hstore d).nextValue (hchan₁ d) (hchan₂ d) (hhist d) (hsgn d)

theorem zeroRunBody_same (c : Codeword) {s s' : State} (h : SameRun s.chan s s') (hchan : s.chan = s'.chan)
    (hhistory : s.rice.history = s'.rice.history) : (zeroRunBody c s).SameNext (zeroRunBody c s') := by
  have hmask : s.zeroRunMask = s'.zeroRunMask := by rw [State.zeroRunMask, State.zeroRunMask, h.cfg]
  unfold zeroRunBody
  rw [← hhistory, ← hmask, ← h.parser, ← hchan, ← h.res]
  generalize codewordValue (zeroRunK s.rice.history).toNat s.zeroRunMask c = bs
  dsimp only
  generalize (if (0#32).slt bs then bs.toNat else 0) = zeros
  split
  · exact .raised _ h.toCommon
  · exact (h.stored _ _ _ rfl hchan.symm).nextValue (s.setCh_chan _ _) ((s'.setCh_chan _ _).trans hchan.symm) rfl rfl

/-! ### Predictor headers on two cores -/

theorem length_eq_of_predictor_wf {i : Instr} (hi : i.wf .predictor = true) :
    ∃ m q r n cs, headerOf i = some (m, q, r, n, cs) ∧ cs.length = n.toNat := by
  cases i with
  | predCopy q r => exact ⟨_, _, _, _, _, rfl, rfl⟩
  | predFirstDiff q r cs =>
    have hlen : cs.length = 31 := by simpa [Instr.wf] using hi
    exact ⟨_, _, _, _, _, rfl, hlen⟩
  | predAdaptive q r n cs =>
    have hlen : (1 ≤ n.toNat ∧ n.toNat ≤ 30) ∧ cs.length = n.toNat := by simpa [Instr.wf] using hi
    exact ⟨_, _, _, _, _, rfl, hlen.2⟩
  | predPrepass m q r n cs =>
    have hlen : m ≠ 0#4 ∧ cs.length = n.toNat := by simpa [Instr.wf] using hi
    exact ⟨_, _, _, _, _, rfl, hlen.2⟩
  | _ => cases hi

/-- A loaded header does not depend on the registers before it: it loads all the coefficients it uses. -/
theorem loadHeader_same {n : BitVec 5} {cs : List (BitVec 16)} (hlen : cs.length = n.toNat) (m q : BitVec 4) (rm : BitVec 3)
    (r r' : ChanRegs) : SameHeader (r.loadHeader m q rm n cs) (r'.loadHeader m q rm n cs) := by
  have htake (table : List Word) : (loadCoefs cs table).take n.toNat = cs.map coefOf :=
    List.take_left' (by rw [List.length_map, hlen])
  exact ⟨rfl, rfl, rfl, rfl, (htake r.coef).trans (htake r'.coef).symm⟩

theorem readLowPlanes_of_planes {s : State} (hub : s.parser.ub ≠ 0#2) :
    readLowPlanes s = (lowPlanes s.nch (8 * s.parser.ub.toNat) s.parser.n.toNat s).bind fun l t => .ok () (t.storeLow l) := by
  rw [readLowPlanes, if_neg hub]
  congr 1
  funext l t
  unfold State.storeLow
  by_cases hnch : t.nch = 2
  · rw [if_pos hnch]
    exact congrArg (Res.ok ()) (if_pos hnch)
  · rw [if_neg hnch]
    exact congrArg (Res.ok ()) (if_neg hnch)

/-- The low-bit planes are read, and the run of channel 0 begins. -/
theorem SameLoaded.beginsRun {s s' : State} (h : SameLoaded s s') :
    ((readLowPlanes s).bind fun _ t => Machine.beginFirstRun t).SameNext
      ((readLowPlanes s').bind fun _ t => Machine.beginFirstRun t) := by
  by_cases hub : s.parser.ub = 0#2
  · rw [readLowPlanes, readLowPlanes, if_pos hub, if_pos (h.parser ▸ hub)]
    exact h.beginFirstRun ⟨fun hne => absurd hub hne, fun hne => absurd hub hne⟩
  · rw [readLowPlanes_of_planes hub, readLowPlanes_of_planes (h.parser ▸ hub), ← h.parser, ← h.nch, Res.bind_assoc,
      Res.bind_assoc]
    refine .bind_read h.toCommon (lowPlanes_same _ _ _ h.input) fun l c => ?_
    obtain ⟨hmode0, hquant0, hricemod0, hncoef0, hcoef0⟩ := h.header0
    have hloaded : SameLoaded ((s.setCursor c).storeLow l) ((s'.setCursor c).storeLow l) :=
      { toSameElement := (h.toSameElement.setCursor c).of_registers rfl rfl rfl rfl rfl rfl
        header0 := ⟨hmode0, hquant0, hricemod0, hncoef0, hcoef0⟩
        header1 := fun hnch =>
          have hheader := h.header1 hnch
          ⟨hheader.mode, hheader.quant, hheader.ricemod, hheader.ncoef, hheader.coef⟩ }
    refine hloaded.beginFirstRun ⟨fun _ => rfl, fun _ hnch => ?_⟩
    have hsecond {t : State} (ht : t.nch = 2) : (t.storeLow l).ch1.low = l.map (·.2) := if_pos ht
    have hnch₁ : (s.setCursor c).nch = 2 := hnch
    have hnch₂ : (s'.setCursor c).nch = 2 := h.nch.symm.trans hnch
    rw [hsecond hnch₁, hsecond hnch₂]

theorem predictorBody_same {m q : BitVec 4} {r : BitVec 3} {n : BitVec 5} {cs : List (BitVec 16)}
    (hlen : cs.length = n.toNat) {s s' : State} (h : SameElement s s') (hchan : s.chan = s'.chan)
    (hfirst : s.chan = .c1 → SameHeader s.ch0 s'.ch0) :
    (predictorBody m q r n cs s).SameNext (predictorBody m q r n cs s') := by
  have hload := loadHeader_same hlen m q r
  have helement : SameElement (s.loaded m q r n cs) (s'.loaded m q r n cs) :=
    h.of_registers (by simp) (by simp) s.loaded_cursor s'.loaded_cursor (by simp) (by simp)
  cases hc : s.chan with
  | c0 =>
    have hc' : s'.chan = .c0 := hchan.symm.trans hc
    have hheader0 : SameHeader (s.loaded m q r n cs).ch0 (s'.loaded m q r n cs).ch0 := by
      rw [State.loaded, State.loaded, hc, hc']
      exact hload _ _
    by_cases hnch : s.nch = 2
    · rw [predictorBody_of_first hc hnch, predictorBody_of_first hc' (h.nch.symm.trans hnch)]
      exact .ok (.predictor (helement.of_registers rfl rfl rfl rfl rfl rfl) rfl (fun _ => hheader0) rfl rfl)
    · rw [predictorBody_of_last (.inr hnch), predictorBody_of_last (.inr fun hn => hnch (h.nch.trans hn))]
      exact SameLoaded.beginsRun ⟨helement, hheader0, fun hn => absurd (s.loaded_nch.symm.trans hn) hnch⟩
  | c1 =>
    have hc' : s'.chan = .c1 := hchan.symm.trans hc
    rw [predictorBody_of_last (.inl hc), predictorBody_of_last (.inl hc')]
    refine SameLoaded.beginsRun ⟨helement, ?_, fun _ => ?_⟩
    · rw [State.loaded, State.loaded, hc, hc']
      exact hfirst hc
    · rw [State.loaded, State.loaded, hc, hc']
      exact hload _ _

/-! ### Elements on two cores -/

theorem Common.input {s s' : State} (h : Common s s') (hcursor : s.cursor = s'.cursor) : SameInput s s' :=
  ⟨hcursor, h.port, h.mem⟩

/-- After the header of an audio element the parser registers agree but for the mix fields, which the element sets. -/
theorem SameTag.withHeader_withMix {s s' : State} (h : SameTag s s') (st : ParserState) (hd : AudioHeader) (shift weight : BitVec 8) :
    SameElement ((s.withHeader st hd).withMix shift weight) ((s'.withHeader st hd).withMix shift weight) := by
  refine ⟨h.toCommon.of_outside rfl rfl, h.cursor, ?_⟩
  have hstride : s.frameStride = s'.frameStride := by rw [State.frameStride, State.frameStride, State.bps, State.bps, h.cfg]
  simp [State.withHeader, State.withMix, h.ci, h.hwm, h.cfg, hstride]

/-- A not-compressed element reads its samples and writes its output, without low-bit values. -/
theorem escapedBody_same {s s' : State} (h : SameElement s.unmixed s'.unmixed) :
    (escapedBody s).SameNext (escapedBody s') := by
  have hnch : s.nch = s'.nch := h.nch
  have hn : s.unmixed.parser.n = s'.unmixed.parser.n := congrArg Parser.n h.parser
  change s.parser.n = s'.parser.n at hn
  have hcfg : s.cfg = s'.cfg := h.cfg
  have hparams : s.params = s'.params := h.params
  rw [escapedBody_eq, escapedBody_eq, ← hnch, ← hn, ← hcfg, ← hparams]
  refine .bind_read h.toCommon (rawSamples_same _ _ _ _ h.input) fun l c => ?_
  have hset := h.setCursor c
  have hstored := hset.of_registers (State.outside_storeSamples _ l) (State.outside_storeSamples _ l) (State.storeSamples_cursor _ l)
    (State.storeSamples_cursor _ l) (State.storeSamples_parser _ l) (State.storeSamples_parser _ l)
  have hub : ((s.unmixed.setCursor c).storeSamples l).parser.ub = 0#2 := by rw [State.storeSamples_parser]; rfl
  refine finishElement_same hstored ?_ (fun htwo => ?_) ⟨fun hne => absurd hub hne, fun hne => absurd hub hne⟩
  · rw [State.storeSamples, State.storeSamples]
    split <;> split <;> rfl
  · have htwo₁ : (s.unmixed.setCursor c).nch = 2 := (State.nch_congr (by simp)).symm.trans htwo
    rw [State.storeSamples_of_pair htwo₁, State.storeSamples_of_pair (hset.nch.symm.trans htwo₁)]

/-- A compressed element reads its mix fields, and its predictor header is due. -/
theorem compressedBody_same {s s' : State} (hcommon : Common s s') (hcursor : s.cursor = s'.cursor)
    (h : ∀ shift weight, SameElement (s.withMix shift weight) (s'.withMix shift weight)) :
    (compressedBody s).SameNext (compressedBody s') := by
  have hub : (s.withMix 0#8 0#8).parser.ub = (s'.withMix 0#8 0#8).parser.ub := congrArg Parser.ub (h 0#8 0#8).parser
  change s.parser.ub = s'.parser.ub at hub
  have hbits : s.chanBits = s'.chanBits := (h 0#8 0#8).chanBits
  have hnch : s.nch = s'.nch := (h 0#8 0#8).nch
  have hcfg := hcommon.cfg
  have hinput := hcommon.input hcursor
  rw [compressedBody_eq, compressedBody_eq]
  refine .bind_require (by rw [hub, hcfg]) hcommon (.bind_require (by rw [hbits]) hcommon ?_)
  refine .bind_read hcommon (readBits_same hinput 8) fun shift c => ?_
  refine .bind_read (s := s.setCursor c) (s' := s'.setCursor c) (hcommon.of_outside rfl rfl)
    (readBits_same (hinput.setCursor c) 8) fun weight d => ?_
  have hmix : SameElement (((s.setCursor c).setCursor d).withMix (shift.setWidth 8) (weight.setWidth 8))
      (((s'.setCursor c).setCursor d).withMix (shift.setWidth 8) (weight.setWidth 8)) := (h _ _).setCursor d
  refine .bind_require (congrArg (mixLegal · _ _) hnch) hmix.toCommon (.bind_require ?_ hmix.toCommon ?_)
  · exact congrArg (fun cfg : StreamCfg => decide (cfg.kmod.toNat < 32)) hcfg
  · exact .ok (.predictor (hmix.of_registers rfl rfl rfl rfl rfl rfl) rfl nofun rfl rfl)

theorem audioBody_same (st : ParserState) (hd : AudioHeader) {s s' : State} (h : SameTag s s') :
    (audioBody st hd s).SameNext (audioBody st hd s') := by
  have hmix := h.withHeader_withMix st hd
  have hraised {e : ErrKind} {r r' : Res Unit} (hr : ∃ p, r = .raised e (s.setParser p))
      (hr' : ∃ p, r' = .raised e (s'.setParser p)) : r.SameNext r' := by
    obtain ⟨p, rfl⟩ := hr
    obtain ⟨p', rfl⟩ := hr'
    exact .raised e (h.toCommon.of_outside rfl rfl)
  have hcfg := h.cfg
  have hci := h.ci
  have hnch : (s.withHeader st hd).nch = (s'.withHeader st hd).nch := rfl
  by_cases hcount : (hd.count.getD s.cfg.maxSamples).toNat ≤ s.cfg.maxSamples.toNat
  case neg =>
    exact hraised (audioBody_of_overrun (not_le.1 hcount)) (audioBody_of_overrun (not_le.1 (hcfg ▸ hcount)))
  by_cases hch : s.parser.ci + (s.withHeader st hd).nch ≤ s.cfg.numCh.toNat
  case neg =>
    exact hraised (audioBody_of_channels hcount (not_le.1 hch))
      (audioBody_of_channels (hcfg ▸ hcount) (not_le.1 (by rwa [← hnch, ← hci, ← hcfg])))
  rw [audioBody_of_checks hcount hch, audioBody_of_checks (hcfg ▸ hcount) (by rwa [← hnch, ← hci, ← hcfg])]
  split
  · refine escapedBody_same ⟨h.toCommon.of_outside rfl rfl, h.cursor, ?_⟩
    exact congrArg (fun p : Parser => { p with ub := 0#2 }) (hmix 0#8 0#8).parser
  · exact compressedBody_same (h.toCommon.of_outside rfl rfl) h.cursor hmix

/-- The parser register that is written before a skip does not matter. -/
theorem SameTag.skip {s s' : State} (h : SameTag s s') (st : ParserState) :
    SameTag (s.setParser { s.parser with state := st }) (s'.setParser { s'.parser with state := st }) :=
  ⟨h.toCommon.of_outside rfl rfl, h.cursor, h.ci, h.hwm⟩

theorem SameTag.atTag {s s' : State} (h : SameTag s s') (c : Cursor) : Same (s.atTag c) (s'.atTag c) :=
  .element ⟨h.toCommon.of_outside rfl rfl, rfl, h.ci, h.hwm⟩ rfl rfl

theorem gapBody_same (cnt : BitVec 4) (ext : Option (BitVec 8)) {s s' : State} (h : SameTag s s') :
    (gapBody cnt ext s).SameNext (gapBody cnt ext s') := by
  have hskip := h.skip .gap
  exact .bind_read hskip.toCommon (advance_same (hskip.input hskip.cursor) _) fun _ c => .ok (hskip.atTag c)

theorem fillBody_same (al : Bool) (cnt : BitVec 8) (ext : Option (BitVec 8)) {s s' : State} (h : SameTag s s') :
    (fillBody al cnt ext s).SameNext (fillBody al cnt ext s') := by
  have hskip : SameTag s.inFill s'.inFill := h.skip .fill
  have hinput := hskip.input hskip.cursor
  rw [fillBody_eq, fillBody_eq]
  refine .bind_read hskip.toCommon (second_same hinput _ () (align_same hinput)) fun _ c => ?_
  exact .bind_read (hskip.setCursor c).toCommon (advance_same (hinput.setCursor c) _) fun _ d => .ok (hskip.atTag d)

theorem endBody_same {s s' : State} (h : SameTag s s') : (endBody s).SameNext (endBody s') := by
  have hskip := h.skip .endCheck
  refine .bind_read hskip.toCommon (align_same (hskip.input hskip.cursor)) fun _ c => ?_
  have hset := hskip.setCursor c
  refine .bind_require (by rw [hset.cursor, hset.port]) hset.toCommon ?_
  refine .ok (.idle ⟨h.cfg, ?_, h.mem, h.params, h.host, h.host'⟩ rfl rfl)
  simp [State.endCommand, h.port, h.hwm]

theorem exec_element_same {fd : FilDse} {i : Instr} (hi : i.wf (.element fd) = true) {s s' : State} (h : SameTag s s') :
    SameOutcome (exec i s) (exec i s') := by
  cases i with
  | sce hd => exact (audioBody_same _ hd h).outcome
  | cpe hd => exact (audioBody_same _ hd h).outcome
  | lfe hd => exact (audioBody_same _ hd h).outcome
  | cce => exact (Res.SameNext.raised _ h.toCommon).outcome
  | pce => exact (Res.SameNext.raised _ h.toCommon).outcome
  | gap cnt ext => exact (gapBody_same cnt ext h).outcome
  | fill inst al cnt ext => exact (fillBody_same al cnt ext h).outcome
  | endElement => exact (endBody_same h).outcome
  | _ => cases hi

/-! ### A step, and a run, of two cores -/

/-- A core step that reads the stream: the fetch is the same on both, and then it is a matter of the instruction. -/
theorem coreStep_stream_same {s s' : State} {f : Form} (h : Common s s') (hcursor : s.cursor = s'.cursor)
    (hf : s.form = some f) (hf' : s'.form = some f) (hbad : s.badParam = s'.badParam)
    (hexec : ∀ i j c, f.Gives i j → SameOutcome (exec i (s.setCursor c)) (exec i (s'.setCursor c))) :
    SameOutcome (coreStep s) (coreStep s') := by
  have hrunning {t : State} (ht : t.form = some f) : t.stage ≠ .idle := by
    rintro hidle
    simp [State.form, hidle] at ht
  have hread := fetchFields_same (formFields f) (h.input hcursor)
  rw [coreStep_running (hrunning hf), coreStep_running (hrunning hf'), fetch, fetch, hf, hf']
  dsimp only
  rw [fetchStream, fetchStream, ← hbad]
  split
  · exact .next (h.raiseError _)
  generalize hr : fetchFields (formFields f) s = r at hread ⊢
  generalize fetchFields (formFields f) s' = r' at hread ⊢
  cases hread with
  | ok i c =>
    obtain ⟨j, -, hj, -⟩ := fetchFields_gives hr
    exact hexec i j c hj
  | raised e c =>
    have hcommon : Common (s.setCursor c) (s'.setCursor c) := h.of_outside rfl rfl
    exact .next (hcommon.raiseError e)
  | stuck r => exact .fault r

theorem State.riceParam_same {s s' : State} (hcfg : s.cfg = s'.cfg) (hhistory : s.rice.history = s'.rice.history)
    (hstage : s.stage = s'.stage) : s.riceParam = s'.riceParam := by
  rw [State.riceParam, State.riceParam, hcfg, hhistory, hstage]

theorem coreStep_same {s s' : State} (h : Same s s') : SameOutcome (coreStep s) (coreStep s') := by
  cases h with
  | idle h hs hs' =>
    rw [coreStep_idle hs, coreStep_idle hs']
    exact .next (.idle h hs hs')
  | element h hs hs' =>
    refine coreStep_stream_same (f := .element s.params.filDse) h.toCommon h.cursor (by simp [State.form, hs])
      (by simp [State.form, hs', h.params]) (by simp [State.badParam, hs, hs']) fun i j c hi => ?_
    exact exec_element_same hi.1 (h.setCursor c)
  | predictor h hchan hfirst hs hs' =>
    refine coreStep_stream_same (f := .predictor) h.toCommon h.cursor (by simp [State.form, hs])
      (by simp [State.form, hs']) (by simp [State.badParam, hs, hs']) fun i j c hi => ?_
    obtain ⟨m, q, r, n, cs, hheader, hlen⟩ := length_eq_of_predictor_wf hi.1
    rw [exec_of_headerOf hheader, exec_of_headerOf hheader]
    exact (predictorBody_same hlen (h.setCursor c) hchan hfirst).outcome
  | run h hchan hhistory hsign hs hs' =>
    have hk := State.riceParam_same h.cfg hhistory hs'
    have hbad : s.badParam = s'.badParam := by rw [State.badParam, State.badParam, hk, hs']
    obtain hs | hs := hs
    · refine coreStep_stream_same (f := .codeword s.chanBits.toNat s.riceParam.toNat) h.toCommon h.cursor
        (by simp [State.form, hs]) (by simp [State.form, ← hs', hs, hk, h.chanBits]) hbad fun i j c hi => ?_
      obtain ⟨⟨w, rfl, -⟩, -⟩ := hi
      rw [exec_residualOf, exec_residualOf]
      exact (residualBody_same (s := s.setCursor c) w (h.setCursor c) hchan hhistory hsign).outcome
    · refine coreStep_stream_same (f := .zeroRun s.riceParam.toNat) h.toCommon h.cursor
        (by simp [State.form, hs]) (by simp [State.form, ← hs', hs, hk]) hbad fun i j c hi => ?_
      obtain ⟨⟨w, rfl, -⟩, -⟩ := hi
      exact (zeroRunBody_same (s := s.setCursor c) w (h.setCursor c) hchan hhistory).outcome

theorem Same.common {s s' : State} (h : Same s s') : Common s s' := by
  cases h with
  | idle h => exact h
  | element h => exact h.toCommon
  | predictor h => exact h.toCommon
  | run h => exact h.toCommon

theorem Same.stage {s s' : State} (h : Same s s') : s.stage = s'.stage := by
  cases h with
  | idle h hs hs' => rw [hs, hs']
  | element h hs hs' => rw [hs, hs']
  | predictor h hchan hfirst hs hs' => rw [hs, hs']
  | run h hchan hhistory hsign hs hs' => exact hs'

theorem decodeCommand_of_op_one {w : BitVec 32} (h : w.extractLsb' 0 4 = 1#4) :
    decodeCommand w = .reservedOp w ∨ ∃ a b, decodeCommand w = .decode a b := by
  cases hres : reservedWord w with
  | true => exact .inl (decodeCommand_of_reserved hres)
  | false => exact .inr ⟨w.extractLsb' 4 6, w.extractLsb' 10 6, by simp [decodeCommand, hres, h]⟩

/-- A DECODE starts the same frame on both cores, or raises on both (R234 to R236, R283). -/
theorem coreStep_decode_same {s s' : State} (h : Common s s') (hs : s.stage = .command) (hs' : s'.stage = .command)
    (hop : s.op = 1#4) : SameOutcome (coreStep s) (coreStep s') := by
  have hready : s.decodeReady = s'.decodeReady := by
    have hsame : ({ s' with cfg := s.cfg, port := s.port } : State) = s' := by rw [h.cfg, h.port]
    exact (congrArg State.decodeReady hsame :)
  have hoverlap : s.buffersOverlap = s'.buffersOverlap := by rw [State.buffersOverlap, State.buffersOverlap, h.port]
  rw [coreStep_running (by simp [hs]), coreStep_running (by simp [hs'])]
  cases hmeet : s.buffersOverlap with
  | true =>
    rw [fetch_command_overlap hs hmeet, fetch_command_overlap hs' (hoverlap ▸ hmeet)]
    exact .fault _
  | false =>
    rw [fetch_command hs hmeet, fetch_command hs' (hoverlap ▸ hmeet), ← h.port, runFetched, runFetched]
    obtain hw | ⟨a, b, hw⟩ := decodeCommand_of_op_one (w := s.port.cmd) hop
    · rw [hw]
      exact (Res.SameNext.raised _ h).outcome
    · rw [hw]
      have hstart : SameTag s.startFrame s'.startFrame :=
        ⟨⟨h.cfg, congrArg (fun p : Port => { p with outLen := 0#32 }) h.port, h.mem, h.params, h.host, h.host'⟩, rfl, rfl, rfl⟩
      have hbegun : Same s.startFrame s'.startFrame := .element hstart rfl rfl
      have hbody : (decodeBody a b s).SameNext (decodeBody a b s') :=
        .bind_require (congrArg (argsZero a b && ·) hready) h (.ok hbegun)
      exact hbody.outcome

/-- Two steps to the same end, and runs that are the same from there. -/
theorem run_succ_same {s s' : State} (h : SameOutcome (coreStep s) (coreStep s')) (hhost : s.host = []) (hhost' : s'.host = [])
    {n : Nat} (hrest : ∀ t t' : State, Same t t' → SameOutcome (core.run n t) (core.run n t')) :
    SameOutcome (core.run (n + 1) s) (core.run (n + 1) s') := by
  rw [← step_of_host_nil hhost, ← step_of_host_nil hhost'] at h
  generalize hr : step s = r at h
  generalize hr' : step s' = r' at h
  cases h with
  | next h =>
    rw [run_of_next core hr, run_of_next core hr']
    exact hrest _ _ h
  | fault f =>
    rw [run_of_fault core hr, run_of_fault core hr']
    exact .fault f

theorem run_same {s s' : State} (h : Same s s') (n : Nat) : SameOutcome (core.run n s) (core.run n s') := by
  induction n generalizing s s' with
  | zero => exact .next h
  | succ n ih => exact run_succ_same (coreStep_same h) h.common.host h.common.host' fun _ _ ht => ih ht

end Sys2Proof.Machine

namespace Sys2Proof.Proofs
open Sys2Proof.Machine

/-- Settles O13: the first step starts the same frame on both cores, and every later step keeps what the command depends on the
same. -/
theorem noStateBetweenFrames : Obligations.NoStateBetweenFrames := by
  intro s s' n hcfg hport hmem hparams hs hs' hop hhost hhost'
  have hcommon : Common s s' := ⟨hcfg, hport, hmem, hparams, hhost, hhost'⟩
  cases n with
  | zero => exact ⟨hmem, hport, hs.trans hs'.symm⟩
  | succ n =>
    have hrun := run_succ_same (coreStep_decode_same hcommon hs hs' hop) hhost hhost' (n := n) fun _ _ ht => run_same ht n
    generalize core.run (n + 1) s = r at hrun ⊢
    generalize core.run (n + 1) s' = r' at hrun ⊢
    cases hrun with
    | next h => exact ⟨h.common.mem, h.common.port, h.stage⟩
    | fault f => rfl

end Sys2Proof.Proofs
end
